-- ==== Sys2Proof/Word.lean ====
section
/-! DEFINITION. The plain value types of the block: levels, words and their widths (spec 00 R5, R8, R9). -/

namespace Sys2Proof

/-- A pin level, or one data bit: `true` is 1 (high), `false` is 0 (low) (R11). -/
abbrev Level := Bool

/-- One byte of a command word carried over a byte transport (R43). -/
abbrev Byte := BitVec 8

/-- The 64-bit command word `W` (R62). -/
abbrev CmdWord := BitVec 64

/-- A 32-bit value: a requested or achieved frequency, a data word of `MAX_WIDTH` = 32 bits, the hold time
(R5, R22, R63). -/
abbrev Data := BitVec 32

/-- A logical device id of `DEVID_WIDTH` = 16 bits (R5, R63). -/
abbrev DevId := BitVec 16

/-- An SPI mode, 0 to 3 (R14, R21). -/
abbrev Mode := BitVec 2

end Sys2Proof
end

