-- ==== Sys2Proof/Config.lean ====
section
/-! DEFINITION. The configuration a block is constructed with (spec 00 R5), the events of the trace (20 R41), and the
free values: what the host and the spec leave open (20 R45; 93 rows 8, 9, 18). -/

namespace Sys2Proof

/-- The trace alphabet (R41): one event per capability call (R11). -/
inductive Event where
  /-- `setClock`: the clock line driven to `v`. -/
  | sck (v : Level)
  /-- `setData`: the data-out line driven to `v`. -/
  | mosi (v : Level)
  /-- `sampleData`: the data-in line read, with the value returned. -/
  | sample (v : Level)
  /-- `delayMicroseconds(n)`. -/
  | delay (n : Nat)
  /-- `select(dev, a)`. -/
  | cs (dev : DevId) (a : Bool)
  /-- `status(dev)`, with the flags returned. -/
  | stat (dev : DevId) (f : Data)
  /-- `setCommandMode(dev, c)`. -/
  | cmd (dev : DevId) (c : Bool)
  deriving DecidableEq, Repr

/-- `MODES_ENABLED`: which of the four modes are not compiled out (R5). -/
structure ModeSet where
  m0 : Bool
  m1 : Bool
  m2 : Bool
  m3 : Bool
  deriving DecidableEq, Repr

/-- `XCHG_VARIANT` (R5). -/
inductive XchgVariant where
  | fixed8
  | variable
  deriving DecidableEq, Repr

/-- How the platform's `sampleData` answers. The named handles are those of spec 95; `host` is R45's general case. -/
inductive SampleHandle where
  /-- Any value: a draw by the host that may depend on the whole trace (R45). -/
  | host
  /-- The loopback handle: the last driven data-out level (R130). -/
  | loopback
  /-- The inverse of the last driven data-out level (spec 95, R148). -/
  | inverter
  /-- The data-in line tied to `v` (spec 95: MISO=0, MISO=1). -/
  | tied (v : Level)
  deriving DecidableEq, Repr

/-- How the platform's `status` answers. -/
inductive StatusHandle where
  /-- Any flags below `2^STATUS_WIDTH`: a draw by the host (R45, R161). -/
  | host
  /-- The same flags for every device. -/
  | constant (f : Data)
  deriving DecidableEq, Repr

/-- `CAP`: what the capability handle answers. The calls that return nothing (R189) need no data. -/
structure Cap where
  sample : SampleHandle
  status : StatusHandle
  deriving DecidableEq, Repr

/-- The configuration (R5): fixed when the block is constructed, never changed afterwards. -/
structure Config where
  /-- `OVERHEAD_NS`, the per-bit overhead in nanoseconds. -/
  overheadNs : Nat
  /-- `MODES_ENABLED`. -/
  modesEnabled : ModeSet
  /-- `XCHG_VARIANT`. -/
  variant : XchgVariant
  /-- `WIDTH_CFG`, the word width of the `variable` variant. -/
  widthCfg : Nat
  /-- `CMDDATA_SUPPORTED`. -/
  cmddataSupported : Bool
  /-- `STATUS_WIDTH`, bits of the platform's status flags. -/
  statusWidth : Nat
  /-- `RESET_MODE`, the mode construction selects. -/
  resetMode : Nat
  /-- `RESET_FREQ_HZ`, the frequency construction applies. -/
  resetFreqHz : Data
  /-- `CAP`. -/
  cap : Cap
  deriving DecidableEq, Repr

/-- R5's column "Value used in this spec's vectors", with the most general handle (DESIGN CHOICE, log 2). -/
def Config.vectors : Config where
  overheadNs := 100
  modesEnabled := ⟨true, true, true, true⟩
  variant := .variable
  widthCfg := 8
  cmddataSupported := false
  statusWidth := 8
  resetMode := 0
  resetFreqHz := 400000#32
  cap := ⟨.host, .host⟩

/-- FREE VALUE: the level the host answers to the `n`-th draw after a trace (R45: it "may depend on the whole trace so
far"). It has no body (log 5). -/
opaque Config.freeSample : Nat → List Event → Level

/-- FREE VALUE: the flags the host answers to the `n`-th draw after a trace, for a device (R45, R161). It has no body
(log 5). -/
opaque Config.freeStatus : Nat → List Event → DevId → Data

/-- FREE VALUE: `MODE` after a faulted construction (R31: unspecified; 93 row 18). It has no body (log 15). -/
opaque Config.unsetMode : Mode

/-- FREE VALUE: `HOLD` after a faulted construction (R31: unspecified; 93 row 18). It has no body (log 15). -/
opaque Config.unsetHold : Data

end Sys2Proof
end

