-- ==== Sys2Proof/Syntax.lean ====
section
/-! DEFINITION. The instructions: the six commands of the command port (spec 30 R60, R61) and the four internal
bit-exchange micro-operations (30 R69). One constructor per row of spec/opcode_table.json. -/

namespace Sys2Proof

/-- The block's operations. The six commands carry the operands of R63. The four waveforms carry the data bit `d` that
XCHG passes them (R120); the host cannot issue them (R69). -/
inductive Instr where
  /-- SELECT dev, a (R160): assert (`true`) or deassert a device's chip select. -/
  | select (dev : DevId) (asserted : Bool)
  /-- SETFREQ hz (R80): set the bus frequency. -/
  | setfreq (hz : Data)
  /-- SETMODE m (R100): select the SPI mode. The operand has 8 bits, so that the modes out of range can be written (R61). -/
  | setmode (m : BitVec 8)
  /-- XCHG x (R140): exchange one word. -/
  | xchg (x : Data)
  /-- STATUS dev (R161): read a device's status flags. -/
  | status (dev : DevId)
  /-- CMDDATA dev, c (R162): signal command (`true`) or data framing. -/
  | cmddata (dev : DevId) (isCommand : Bool)
  /-- BITX0 (R121): the waveform of mode 0. -/
  | bitx0 (d : Level)
  /-- BITX1 (R122): the waveform of mode 1. -/
  | bitx1 (d : Level)
  /-- BITX2 (R123): the waveform of mode 2. -/
  | bitx2 (d : Level)
  /-- BITX3 (R124): the waveform of mode 3. -/
  | bitx3 (d : Level)
  deriving DecidableEq, Repr

end Sys2Proof
end

