-- ==== Sys2Proof/WellFormed.lean ====
section
/-! DEFINITION. Which instructions the host can issue (spec 30 R69), and which configurations are accepted (00 R7).
The operands of an instruction have the widths of R63 by their types, so nothing is left to check of them. -/

namespace Sys2Proof

/-- An instruction is well-formed as a command exactly when it is one of the six commands: "The host cannot issue" the
micro-operations (R69). -/
def Instr.isCommand : Instr → Bool
  | .select _ _ => true
  | .setfreq _ => true
  | .setmode _ => true
  | .xchg _ => true
  | .status _ => true
  | .cmddata _ _ => true
  | .bitx0 _ => false
  | .bitx1 _ => false
  | .bitx2 _ => false
  | .bitx3 _ => false

/-- A reason R7 gives for refusing a configuration. -/
inductive ConfigProblem where
  /-- `OVERHEAD_NS` = 0. -/
  | overheadZero
  /-- `OVERHEAD_NS` > 1 000 000 000. -/
  | overheadTooLarge
  /-- `WIDTH_CFG` = 0 under `VARIABLE`. -/
  | widthZero
  /-- `WIDTH_CFG` > `MAX_WIDTH` = 32 under `VARIABLE`. -/
  | widthTooLarge
  /-- `STATUS_WIDTH` outside 1..32. -/
  | statusWidthRange
  /-- `RESET_MODE` outside 0..3. -/
  | resetModeRange
  /-- `RESET_FREQ_HZ` = 0. -/
  | resetFreqZero
  deriving DecidableEq, Repr

/-- Whether a configuration has a given problem (R7). -/
def Config.has (c : Config) : ConfigProblem → Bool
  | .overheadZero => c.overheadNs == 0
  | .overheadTooLarge => decide (1000000000 < c.overheadNs)
  | .widthZero => c.variant == .variable && c.widthCfg == 0
  | .widthTooLarge => c.variant == .variable && decide (32 < c.widthCfg)
  | .statusWidthRange => c.statusWidth == 0 || decide (32 < c.statusWidth)
  | .resetModeRange => decide (3 < c.resetMode)
  | .resetFreqZero => c.resetFreqHz == 0

/-- Every problem of a configuration, in R7's order. -/
def Config.problems (c : Config) : List ConfigProblem :=
  [.overheadZero, .overheadTooLarge, .widthZero, .widthTooLarge, .statusWidthRange, .resetModeRange,
    .resetFreqZero].filter c.has

/-- R7 accepts the configuration. -/
abbrev Config.Accepted (c : Config) : Prop := c.problems = []

end Sys2Proof
end

