-- ==== Sys2Proof/Machine/State.lean ====
section
/-! DEFINITION. The state of one block instance (spec 10 R20 to R28), its reset value (10 R31, 70 R200), and the reasons
a step stops (60 R181, R183, R184; 00 R7, R13). -/

namespace Sys2Proof.Machine

/-- What a completed command returns on the command port (R68). -/
inductive Response where
  /-- `none`: the command returns no value. -/
  | noValue
  /-- The 32-bit value `R`. -/
  | value (r : Data)
  deriving DecidableEq, Repr

/-- A move of the host on the command port that it has still to make (R60, R191, R195; log 8). -/
inductive HostMove where
  /-- Present the word now, whether or not the block is busy: the liberty that R191 answers with `F_REENTRANT`. -/
  | present (w : CmdWord)
  /-- Present the word as soon as the block is not busy: R195's duty, commands "one at a time". -/
  | issue (w : CmdWord)
  /-- Present nothing while the block takes one step. -/
  | pause
  deriving DecidableEq, Repr

/-- The state `S` of R20, the configuration (R5), the two ends of the command port, and the model's own two fields. -/
structure State where
  /-- The configuration, fixed at construction (R5, R23). No step writes it (log 1). -/
  cfg : Config
  /-- `MODE` (R21). -/
  mode : Mode
  /-- `HOLD`, microseconds (R22). -/
  hold : Data
  /-- `FAULT` (R24): the code of R181, 0 for none. -/
  fault : BitVec 3
  /-- `BUSY` (R25). -/
  busy : Bool
  /-- `XI`, the bit position being exchanged (R26). -/
  xi : Nat
  /-- `XACC`, the accumulator of sampled bits (R26). -/
  xacc : Data
  /-- `XDOUT`, the data word being sent (R26). -/
  xdout : Data
  /-- `XSTEP`, the index of the next call of the current waveform (R26). -/
  xstep : Nat
  /-- The model's own: the bit the current waveform has sampled, for R145's last call (DEDUCED, log 4). -/
  xsmp : Level
  /-- `SCK_LVL` (R27): `none` is ⊥, not yet driven. -/
  sckLvl : Option Level
  /-- `MOSI_LVL` (R27). -/
  mosiLvl : Option Level
  /-- `TRACE`, oldest event first (R28). -/
  trace : List Event
  /-- The responses returned so far, oldest first (R68, R210; log 9). -/
  responses : List Response
  /-- The host's moves still to come (log 8). -/
  inbox : List HostMove
  /-- The model's own: how many host draws have been made, the counter of the free values (log 5). -/
  draws : Nat
  deriving DecidableEq, Repr

/-- The faults of R181, each raised by the block itself. -/
inductive FaultName where
  /-- `F_ILLEGAL`: an illegal command word (R66). Raised by the decoder's rejection. Safe. -/
  | illegal
  /-- `F_FREQ_ZERO`: SETFREQ with `hz` = 0 (R80). Safe. -/
  | freqZero
  /-- `F_MODE_RANGE`: SETMODE with `m` > 3 (R103). Safe. -/
  | modeRange
  /-- `F_MODE_DISABLED`: SETMODE, or construction, with a mode not in `MODES_ENABLED` (R104, R201). Safe. -/
  | modeDisabled
  /-- `F_UNSUPPORTED`: CMDDATA on a block built without it (R162). Safe. -/
  | unsupported
  /-- `F_REENTRANT`: any command while an XCHG is in progress (R191). Safe. -/
  | reentrant
  deriving DecidableEq, Repr

/-- What a fault outcome names beside the fault (R183): "the word for `F_ILLEGAL`, the decoded command otherwise". -/
inductive Offender where
  | word (w : CmdWord)
  | command (i : Instr)
  deriving DecidableEq, Repr

/-- Why the machine stops with a fault. -/
inductive Fault where
  /-- Raised by `step` when the command it ran took a fault (R183): the fault's name, the offending command and the
  state at the stop, in which `FAULT` holds the code. Safe: the spec gives this outcome (log 10). -/
  | raised (name : FaultName) (offender : Offender) (stopped : State)
  /-- Raised by `step` and by every meaning while `FAULT` ≠ 0 (R184): the block takes no step, and this is not a new
  fault. Safe (log 11). -/
  | stopped (code : BitVec 3)
  deriving DecidableEq, Repr

/-- Why there is no next state at all. -/
inductive Refusal where
  /-- An instruction that has no meaning yet. Raised by no arm of this model. Safe. -/
  | notModelled (mnemonic : String)
  /-- Raised by construction only (R7, R13 (c)): the configuration is refused and no block is constructed. Safe. -/
  | configuration (problems : List ConfigProblem)
  /-- Raised by a micro-operation's meaning where no micro-step of an exchange stands before it: the host cannot issue
  one (R69), and R26 leaves the loop position unspecified there. `step` never asks for it in a reachable state. Safe
  (log 12). -/
  | outsideExchange
  deriving DecidableEq, Repr

/-- The state after construction with the configuration `Config.vectors` (R31, R200): "`MODE` = 0, `HOLD` = 1, `SCK_LVL`
= 0, `MOSI_LVL` = ⊥, `TRACE` = `[SCK(0)]`". The values of the hidden elements and of the model's own fields are named in
logs 3 and 5. -/
def State.reset : State where
  cfg := Config.vectors
  mode := 0#2
  hold := 1#32
  fault := 0#3
  busy := false
  xi := 0
  xacc := 0#32
  xdout := 0#32
  xstep := 0
  xsmp := false
  sckLvl := some false
  mosiLvl := none
  trace := [.sck false]
  responses := []
  inbox := []
  draws := 0

end Sys2Proof.Machine
end

