-- ==== Sys2Proof/Machine/Flags.lean ====
section
/-! DEFINITION. Flags. The block has no flags of its own (spec 10 R29): what stands here is the platform's status flags,
which pass through (44 R161), and the fault codes of the FAULT register (60 R181). -/

namespace Sys2Proof.Machine

/-- The flags a platform call returns are below `2^STATUS_WIDTH` (R11, R161): the low `width` bits of `f`, the others 0
(log 6). -/
def limitFlags (width : Nat) (f : Data) : Data := BitVec.ofNat 32 (f.toNat % 2 ^ width)

/-- The code of a fault (R181). -/
def FaultName.code : FaultName → BitVec 3
  | .illegal => 1#3
  | .freqZero => 2#3
  | .modeRange => 3#3
  | .modeDisabled => 4#3
  | .unsupported => 5#3
  | .reentrant => 6#3

/-- The fault that a value of `FAULT` names: none for 0 (no fault) and for 7 (unused). -/
def faultOfCode (c : BitVec 3) : Option FaultName :=
  [FaultName.illegal, .freqZero, .modeRange, .modeDisabled, .unsupported, .reentrant].find? (fun f => f.code == c)

end Sys2Proof.Machine
end

