-- ==== Sys2Proof/Machine/Operands.lean ====
section
/-! DEFINITION. What the instructions read as operands beside the fields of their word: the word width, a mode's polarity
and phase, MODES_ENABLED, a bit of the data word (spec 00 R6, R8, R14; 41 R101). -/

namespace Sys2Proof.Machine

/-- The effective word width `WIDTH` (R6). -/
def width (c : Config) : Nat :=
  match c.variant with
  | .fixed8 => 8
  | .variable => c.widthCfg

/-- `CPOL = mode[1]` (R14). -/
def cpol (m : Mode) : Level := m.getLsbD 1

/-- `CPHA = mode[0]` (R14). -/
def cpha (m : Mode) : Bool := m.getLsbD 0

/-- The idle clock level, `idle(m) = m[1]` (R101). -/
def idle (m : Mode) : Level := m.getLsbD 1

/-- `m ∈ MODES_ENABLED` (R5, R104). -/
def modeEnabled (c : Config) (m : Mode) : Bool :=
  if m = 0#2 then c.modesEnabled.m0
  else if m = 1#2 then c.modesEnabled.m1
  else if m = 2#2 then c.modesEnabled.m2
  else c.modesEnabled.m3

/-- `x[i]`, bit `i` of a data word (R8). -/
def dataBit (x : Data) (i : Nat) : Level := x.getLsbD i

/-- The bit the exchange in progress sends now, `S.XDOUT[S.XI]` (R145). -/
def currentBit (s : State) : Level := dataBit s.xdout s.xi

end Sys2Proof.Machine
end

