-- ==== Sys2Proof/Machine/Ops.lean ====
section
/-! DEFINITION. The shared operations: the capability calls (spec 00 R11), the response (30 R68), taking a fault (60
R183) and the checks that every command begins with (60 R184, R191). There is no return from a fault (60 R184). -/

namespace Sys2Proof.Machine

/-- Every capability call appends exactly one event (R41). -/
def appendEvent (e : Event) (s : State) : State := { s with trace := s.trace ++ [e] }

/-- `SetClk(v)` (R11); it also writes `SCK_LVL` (R120). -/
def setClk (v : Level) (s : State) : State := { appendEvent (.sck v) s with sckLvl := some v }

/-- `SetMosi(v)` (R11); it also writes `MOSI_LVL` (R120). -/
def setMosi (v : Level) (s : State) : State := { appendEvent (.mosi v) s with mosiLvl := some v }

/-- `Delay(n)` (R11): the model records it and has no time (R209). -/
def delayCall (n : Nat) (s : State) : State := appendEvent (.delay n) s

/-- What `sampleData()` answers (R45, R130): by the handle, from the counter of draws, the last driven data-out level
and the trace so far. A loopback before any drive may return either level (93 row 16; log 7). -/
def drawSample (h : SampleHandle) (draws : Nat) (mosi : Option Level) (trace : List Event) : Level :=
  match h with
  | .host => Config.freeSample draws trace
  | .tied v => v
  | .loopback => mosi.getD (Config.freeSample draws trace)
  | .inverter => !mosi.getD (Config.freeSample draws trace)

/-- The value of the `Sample()` that the block makes now. -/
def sampleNow (s : State) : Level := drawSample s.cfg.cap.sample s.draws s.mosiLvl s.trace

/-- `s <- Sample()` (R11): the value is kept for the running waveform (log 4). -/
def sampleCall (s : State) : State :=
  { appendEvent (.sample (sampleNow s)) s with xsmp := sampleNow s, draws := s.draws + 1 }

/-- `Select(dev, a)` (R11). -/
def selectCall (dev : DevId) (a : Bool) (s : State) : State := appendEvent (.cs dev a) s

/-- The flags that `status(dev)` answers now (R45, R161), below `2^STATUS_WIDTH`. -/
def statusNow (dev : DevId) (s : State) : Data :=
  limitFlags s.cfg.statusWidth
    (match s.cfg.cap.status with
     | .host => Config.freeStatus s.draws s.trace dev
     | .constant f => f)

/-- `f <- Status(dev)` (R11). -/
def statusCall (dev : DevId) (s : State) : State :=
  { appendEvent (.stat dev (statusNow dev s)) s with draws := s.draws + 1 }

/-- `CmdMode(dev, c)` (R11). -/
def cmdModeCall (dev : DevId) (c : Bool) (s : State) : State := appendEvent (.cmd dev c) s

/-- A command completes and returns its response (R68). -/
def respond (r : Response) (s : State) : State := { s with responses := s.responses ++ [r] }

/-- Fault entry (R183): "`S.FAULT <- code(F)`", and "the faulting command writes no other state, makes no capability
call and returns no response". -/
def takeFault (f : FaultName) (s : State) : State := { s with fault := f.code }

/-- What every command checks first: a faulted block takes no command (R184), and a command while an XCHG is in progress
raises `F_REENTRANT` (R191), before the command's own faults (R182). -/
def acceptCommand (s : State) (body : State → State) : Host.Outcome State Fault Refusal :=
  if s.fault ≠ 0#3 then .fault (.stopped s.fault)
  else if s.busy then .next (takeFault .reentrant s)
  else .next (body s)

end Sys2Proof.Machine
end

