-- ==== Sys2Proof/Machine/WordExchange.lean ====
section
/-! DEFINITION. The word exchange XCHG (spec 43 R140 to R149): its start step and its bookkeeping between waveforms. -/

namespace Sys2Proof.Machine

/-- The start step of R145, once the command is accepted. It makes no capability call. -/
def startExchange (x : Data) (s : State) : State :=
  { s with busy := true, xdout := x, xacc := 0#32, xi := width s.cfg - 1, xstep := 0 }

/-- XCHG (R140, in the micro-step form of R145): the start step. The micro-operations of the following steps do the
rest, and the last of them returns the response. -/
def execXchg (x : Data) (s : State) : Host.Outcome State Fault Refusal :=
  acceptCommand s (startExchange x)

/-- `trunc_32((acc << 1) | b)` (R140, R145). -/
def shiftIn (acc : Data) (b : Level) : Data := (acc <<< 1) ||| (BitVec.ofBool b).setWidth 32

/-- After a waveform's last call (R145): the sampled bit enters the accumulator; then the exchange ends with its
response, or the next bit begins. -/
def finishBit (s : State) : State :=
  if s.xi = 0 then
    respond (.value (shiftIn s.xacc s.xsmp)) { s with xacc := shiftIn s.xacc s.xsmp, busy := false }
  else { s with xacc := shiftIn s.xacc s.xsmp, xi := s.xi - 1, xstep := 0 }

end Sys2Proof.Machine
end

