-- ==== Sys2Proof/Machine/BitExchange.lean ====
section
/-! DEFINITION. The bit-exchange sequencer BITX0 to BITX3 (spec 42 R120 to R130): the four waveforms as lists of calls,
and the micro-step that performs one of them (43 R145). -/

namespace Sys2Proof.Machine

/-- A call of a waveform's pseudocode (R120). -/
inductive Call where
  | setClk (v : Level)
  | setMosi (v : Level)
  | sample
  | hold
  deriving DecidableEq, Repr

/-- BITX0 (R121): "drive data → raise clock, sample → hold → lower clock → hold". -/
def bitx0Calls (d : Level) : List Call := [.setMosi d, .setClk true, .sample, .hold, .setClk false, .hold]

/-- BITX1 (R122): "raise clock, drive data → hold → lower clock, sample → hold". -/
def bitx1Calls (d : Level) : List Call := [.setClk true, .setMosi d, .hold, .setClk false, .sample, .hold]

/-- BITX2 (R123): "drive data → lower clock, sample → hold → raise clock → hold". -/
def bitx2Calls (d : Level) : List Call := [.setMosi d, .setClk false, .sample, .hold, .setClk true, .hold]

/-- BITX3 (R124): "lower clock, drive data → hold → raise clock, sample → hold". -/
def bitx3Calls (d : Level) : List Call := [.setClk false, .setMosi d, .hold, .setClk true, .sample, .hold]

/-- The parameterised form of R125. -/
def bitxCalls (cpol : Level) (cpha : Bool) (d : Level) : List Call :=
  if cpha then [.setClk (!cpol), .setMosi d, .hold, .setClk cpol, .sample, .hold]
  else [.setMosi d, .setClk (!cpol), .sample, .hold, .setClk cpol, .hold]

/-- The calls that are made: "A `Hold()` with `S.HOLD` = 0 is not a micro-step" (R120, R126). -/
def liveCalls (hold : Data) (calls : List Call) : List Call :=
  if hold = 0#32 then calls.filter (· ≠ .hold) else calls

/-- One capability call of a waveform. `Hold()` is `Delay(S.HOLD)` (R120). -/
def performCall (c : Call) (s : State) : State :=
  match c with
  | .setClk v => setClk v s
  | .setMosi v => setMosi v s
  | .sample => sampleCall s
  | .hold => delayCall s.hold.toNat s

/-- A following step of R145: call number `S.XSTEP` is made and `S.XSTEP` counts on; after the waveform's last call the
bit is finished. -/
def advanceWith (c : Call) (last : Bool) (s : State) : State :=
  if last then finishBit { performCall c s with xstep := s.xstep + 1 }
  else { performCall c s with xstep := s.xstep + 1 }

/-- The micro-step of a waveform given by its calls (R145). A faulted block takes no step (R184). Outside an exchange
there is no call to make (R69; log 12). -/
def microStep (calls : List Call) (s : State) : Host.Outcome State Fault Refusal :=
  if s.fault ≠ 0#3 then .fault (.stopped s.fault)
  else if s.busy = false then .refused .outsideExchange
  else
    match (liveCalls s.hold calls)[s.xstep]? with
    | none => .refused .outsideExchange
    | some c => .next (advanceWith c (s.xstep + 1 == (liveCalls s.hold calls).length) s)

/-- BITX0 (R121): the micro-step of its waveform. -/
def execBitx0 (d : Level) (s : State) : Host.Outcome State Fault Refusal := microStep (bitx0Calls d) s

/-- BITX1 (R122): the micro-step of its waveform. -/
def execBitx1 (d : Level) (s : State) : Host.Outcome State Fault Refusal := microStep (bitx1Calls d) s

/-- BITX2 (R123): the micro-step of its waveform. -/
def execBitx2 (d : Level) (s : State) : Host.Outcome State Fault Refusal := microStep (bitx2Calls d) s

/-- BITX3 (R124): the micro-step of its waveform. -/
def execBitx3 (d : Level) (s : State) : Host.Outcome State Fault Refusal := microStep (bitx3Calls d) s

/-- The waveform that a mode selects (R102). -/
def waveform (m : Mode) (d : Level) : List Call :=
  if m = 0#2 then bitx0Calls d
  else if m = 1#2 then bitx1Calls d
  else if m = 2#2 then bitx2Calls d
  else bitx3Calls d

/-! The whole-command form of R140, beside the micro-step form that the machine runs. -/

/-- A whole waveform: its calls, strictly in the order written (R120). The sampled bit stands in `xsmp`. -/
def runCalls (calls : List Call) (s : State) : State := calls.foldl (fun s c => performCall c s) s

/-- The bit loop of R140, for `i` = n-1 down to 0, with the accumulator so far. -/
def exchangeBits (x : Data) : Nat → Data → State → State × Data
  | 0, acc, s => (s, acc)
  | n + 1, acc, s =>
    exchangeBits x n (shiftIn acc (runCalls (liveCalls s.hold (waveform s.mode (dataBit x n))) s).xsmp)
      (runCalls (liveCalls s.hold (waveform s.mode (dataBit x n))) s)

/-- XCHG in the whole-command form of R140, once the command is accepted. -/
def wholeExchange (x : Data) (s : State) : State :=
  respond (.value (exchangeBits x (width s.cfg) 0#32 s).2) (exchangeBits x (width s.cfg) 0#32 s).1

end Sys2Proof.Machine
end

