-- ==== Sys2Proof/Machine/BusControl.lean ====
section
/-! DEFINITION. The bus-control pass-through: SELECT, STATUS, CMDDATA (spec 44 R160 to R164). -/

namespace Sys2Proof.Machine

/-- SELECT's own part (R160): any device id is forwarded, unchecked. -/
def selectBody (dev : DevId) (a : Bool) (s : State) : State := respond .noValue (selectCall dev a s)

/-- SELECT (R160). -/
def execSelect (dev : DevId) (a : Bool) (s : State) : Host.Outcome State Fault Refusal :=
  acceptCommand s (selectBody dev a)

/-- STATUS's own part (R161): `R` is the platform's flags, zero-extended. -/
def statusBody (dev : DevId) (s : State) : State := respond (.value (statusNow dev s)) (statusCall dev s)

/-- STATUS (R161). -/
def execStatus (dev : DevId) (s : State) : Host.Outcome State Fault Refusal :=
  acceptCommand s (statusBody dev)

/-- CMDDATA's own part (R162): a fault where the block is built without it. -/
def cmddataBody (dev : DevId) (c : Bool) (s : State) : State :=
  if s.cfg.cmddataSupported = false then takeFault .unsupported s
  else respond .noValue (cmdModeCall dev c s)

/-- CMDDATA (R162). -/
def execCmddata (dev : DevId) (c : Bool) (s : State) : Host.Outcome State Fault Refusal :=
  acceptCommand s (cmddataBody dev c)

end Sys2Proof.Machine
end

