-- ==== Sys2Proof/Machine/ModeSelect.lean ====
section
/-! DEFINITION. The mode selector, SETMODE (spec 41 R100 to R107). -/

namespace Sys2Proof.Machine

/-- SETMODE's own part (R100): range (R103), membership in `MODES_ENABLED` (R104), the clock to idle (R105), `MODE`. -/
def setmodeBody (m : BitVec 8) (s : State) : State :=
  if 3 < m.toNat then takeFault .modeRange s
  else if modeEnabled s.cfg (m.setWidth 2) = false then takeFault .modeDisabled s
  else respond .noValue { setClk (idle (m.setWidth 2)) s with mode := m.setWidth 2 }

/-- SETMODE (R100). -/
def execSetmode (m : BitVec 8) (s : State) : Host.Outcome State Fault Refusal :=
  acceptCommand s (setmodeBody m)

end Sys2Proof.Machine
end

