-- ==== Sys2Proof/Machine/Timing.lean ====
section
/-! DEFINITION. The timing calculator and SETFREQ (spec 40 R80 to R88). -/

namespace Sys2Proof.Machine

/-- The full bit period in nanoseconds (R81). -/
def period (hz : Nat) : Nat := (1000000000 + hz / 2) / hz

/-- The time remaining after the overhead, clamped at 0 (R82): `pns`. -/
def remainingNs (overhead hz : Nat) : Nat :=
  if period hz > overhead then period hz - overhead else 0

/-- From the remaining time to the hold time: two roundings to nearest (R83). -/
def roundHold (pns : Nat) : Nat := ((pns + 1) / 2 + 500) / 1000

/-- The hold time in microseconds (R83). -/
def holdTime (overhead hz : Nat) : Nat := roundHold (remainingNs overhead hz)

/-- The achieved frequency in Hz (R84). -/
def achieved (overhead h : Nat) : Nat := 1000000000 / (2000 * h + overhead)

/-- SETFREQ's own part (R80), once the command is accepted. -/
def setfreqBody (hz : Data) (s : State) : State :=
  if hz = 0#32 then takeFault .freqZero s
  else
    respond (.value (BitVec.ofNat 32 (achieved s.cfg.overheadNs (holdTime s.cfg.overheadNs hz.toNat))))
      { s with hold := BitVec.ofNat 32 (holdTime s.cfg.overheadNs hz.toNat) }

/-- SETFREQ (R80). -/
def execSetfreq (hz : Data) (s : State) : Host.Outcome State Fault Refusal :=
  acceptCommand s (setfreqBody hz)

/-! R87: the same calculator in 32-bit unsigned arithmetic. -/

/-- `period` in 32 bits. -/
def period32 (hz : Data) : Data := (1000000000#32 + hz >>> 1) / hz

/-- `pns` in 32 bits. -/
def remaining32 (overhead hz : Data) : Data :=
  if overhead < period32 hz then period32 hz - overhead else 0#32

/-- `hold` in 32 bits. -/
def hold32 (overhead hz : Data) : Data := ((remaining32 overhead hz + 1#32) >>> 1 + 500#32) / 1000#32

/-- `achieved` in 32 bits. -/
def achieved32 (overhead h : Data) : Data := 1000000000#32 / (2000#32 * h + overhead)

end Sys2Proof.Machine
end

