-- ==== Sys2Proof/Machine/Dispatch.lean ====
section
/-! DEFINITION. The dispatch: one arm per instruction, each one direct call of its meaning. -/

namespace Sys2Proof.Machine

def exec (i : Instr) (s : State) : Host.Outcome State Fault Refusal :=
  match i with
  | .select dev a => Sys2Proof.Machine.execSelect dev a s
  | .setfreq hz => Sys2Proof.Machine.execSetfreq hz s
  | .setmode m => Sys2Proof.Machine.execSetmode m s
  | .xchg x => Sys2Proof.Machine.execXchg x s
  | .status dev => Sys2Proof.Machine.execStatus dev s
  | .cmddata dev c => Sys2Proof.Machine.execCmddata dev c s
  | .bitx0 d => Sys2Proof.Machine.execBitx0 d s
  | .bitx1 d => Sys2Proof.Machine.execBitx1 d s
  | .bitx2 d => Sys2Proof.Machine.execBitx2 d s
  | .bitx3 d => Sys2Proof.Machine.execBitx3 d s

end Sys2Proof.Machine
end

