-- ==== Sys2Proof/Decode.lean ====
section
/-! DEFINITION. Decoding the 64-bit command word, its encoder, the selection of a micro-operation by MODE, and the
byte form of a command word (spec 30 R62 to R67, R69; 20 R43). -/

namespace Sys2Proof

/-- Why a word is illegal (R66), or a byte sequence is no command. -/
inductive DecodeError where
  /-- `OP` is 0x00 or 0x07 to 0xFF (R66, step 1). -/
  | reservedOpcode (op : BitVec 8)
  /-- A reserved bit of the command's pattern is 1 (R66, step 2). -/
  | reservedBits
  /-- A transport delivered a number of bytes that is not the eight of one word (R67; log 18). -/
  | notOneWord (nbytes : Nat)
  deriving DecidableEq, Repr

/-- A row of R65: a word encodes the row's command exactly when `W & mask = value`. -/
structure CmdRow where
  mask : CmdWord
  value : CmdWord
  deriving DecidableEq, Repr

/-! R65, row by row. -/

def selectRow : CmdRow := ⟨0xFFFFFFFF0000FEFF#64, 0x0000000000000001#64⟩
def setfreqRow : CmdRow := ⟨0x00000000FFFFFFFF#64, 0x0000000000000002#64⟩
def setmodeRow : CmdRow := ⟨0xFFFFFFFFFFFF00FF#64, 0x0000000000000003#64⟩
def xchgRow : CmdRow := ⟨0x00000000FFFFFFFF#64, 0x0000000000000004#64⟩
def statusRow : CmdRow := ⟨0xFFFFFFFF0000FFFF#64, 0x0000000000000005#64⟩
def cmddataRow : CmdRow := ⟨0xFFFFFFFF0000FEFF#64, 0x0000000000000006#64⟩

/-- The table of R65. -/
def commandRows : List CmdRow := [selectRow, setfreqRow, setmodeRow, xchgRow, statusRow, cmddataRow]

/-- `W & mask = value`. -/
def CmdRow.matchesWord (r : CmdRow) (w : CmdWord) : Bool := w &&& r.mask == r.value

/-! The fields of R62. -/

def opField (w : CmdWord) : BitVec 8 := w.extractLsb' 0 8
def aField (w : CmdWord) : BitVec 8 := w.extractLsb' 8 8
def devField (w : CmdWord) : DevId := w.extractLsb' 16 16
def immField (w : CmdWord) : Data := w.extractLsb' 32 32

/-- Bit `W[8]`: the asserted bit of SELECT, the command bit of CMDDATA (R63). -/
def flagBit (w : CmdWord) : Bool := w.getLsbD 8

/-- R66, step 2: the command, if no reserved bit of its row is 1. -/
def withReservedClear (r : CmdRow) (w : CmdWord) (i : Instr) : Except DecodeError Instr :=
  if r.matchesWord w then .ok i else .error .reservedBits

/-- The decoder of R66, total on all words: the opcode map of R64, the reserved bits of R65, the operands of R63. -/
def decode (w : CmdWord) : Except DecodeError Instr :=
  if opField w = 0x01#8 then withReservedClear selectRow w (.select (devField w) (flagBit w))
  else if opField w = 0x02#8 then withReservedClear setfreqRow w (.setfreq (immField w))
  else if opField w = 0x03#8 then withReservedClear setmodeRow w (.setmode (aField w))
  else if opField w = 0x04#8 then withReservedClear xchgRow w (.xchg (immField w))
  else if opField w = 0x05#8 then withReservedClear statusRow w (.status (devField w))
  else if opField w = 0x06#8 then withReservedClear cmddataRow w (.cmddata (devField w) (flagBit w))
  else .error (.reservedOpcode (opField w))

/-- A command word from its four fields, in the order of R62's diagram. -/
def packWord (imm : Data) (dev : DevId) (a op : BitVec 8) : CmdWord := imm ++ dev ++ a ++ op

/-- The `A` field of a one-bit operand: `A[0]` is the bit, `A[7:1]` is 0 (R65). -/
def flagField (b : Bool) : BitVec 8 := (0#7) ++ BitVec.ofBool b

/-- The encoder: R65's pattern of each command. The micro-operations have no word (R69). -/
def encode : Instr → Option CmdWord
  | .select dev a => some (packWord 0#32 dev (flagField a) 0x01#8)
  | .setfreq hz => some (packWord hz 0#16 0#8 0x02#8)
  | .setmode m => some (packWord 0#32 0#16 m 0x03#8)
  | .xchg x => some (packWord x 0#16 0#8 0x04#8)
  | .status dev => some (packWord 0#32 dev 0#8 0x05#8)
  | .cmddata dev c => some (packWord 0#32 dev (flagField c) 0x06#8)
  | .bitx0 _ => none
  | .bitx1 _ => none
  | .bitx2 _ => none
  | .bitx3 _ => none

/-- R69: the micro-operation that `S.MODE` selects, with the data bit that XCHG passes it. -/
def selectMicroOp (mode : Mode) (d : Level) : Instr :=
  if mode = 0#2 then .bitx0 d
  else if mode = 1#2 then .bitx1 d
  else if mode = 2#2 then .bitx2 d
  else .bitx3 d

/-- A word as a transport carries it: eight bytes, byte 0 is bits 7:0 (R43). -/
def bytesOfWord (w : CmdWord) : List Byte :=
  [w.extractLsb' 0 8, w.extractLsb' 8 8, w.extractLsb' 16 8, w.extractLsb' 24 8,
    w.extractLsb' 32 8, w.extractLsb' 40 8, w.extractLsb' 48 8, w.extractLsb' 56 8]

/-- The word that eight bytes carry, little-endian (R43). -/
def wordOfBytes : List Byte → Option CmdWord
  | [b0, b1, b2, b3, b4, b5, b6, b7] => some (b7 ++ b6 ++ b5 ++ b4 ++ b3 ++ b2 ++ b1 ++ b0)
  | _ => none

/-- Decoding any bytes: exactly one word's eight (R67), then R66. -/
def decodeBytes (bs : List Byte) : Except DecodeError Instr :=
  match wordOfBytes bs with
  | some w => decode w
  | none => .error (.notOneWord bs.length)

/-- What the decoder reads for a row of spec/opcode_table.json. A row of at most one byte is an internal row, whose bits
are the 2-bit `MODE` register and not a command word (R69); its data bit has no bits in the table and is 0 (log 13). -/
def decodeTableWord (nbits w : Nat) : Option Instr :=
  if nbits ≤ 8 then
    if w < 4 then some (selectMicroOp (BitVec.ofNat 2 w) false) else none
  else if nbits ≤ 64 ∧ w < 2 ^ 64 then
    match decodeBytes (bytesOfWord (BitVec.ofNat 64 w)) with
    | .ok i => some i
    | .error _ => none
  else none

end Sys2Proof
end

