-- ==== Sys2Proof/Machine/Fetch.lean ====
section
/-! DEFINITION. What the next step of the block is about: the command port (spec 30 R60, R66; 60 R182, R184, R191) and
the micro-operation of an exchange in progress (43 R145). -/

namespace Sys2Proof.Machine

/-- What the next step does. -/
inductive Action where
  /-- Nothing: the block is faulted (R184). -/
  | stopped (code : BitVec 3)
  /-- Nothing: no command is presented and no exchange is in progress (R202). -/
  | wait (s : State)
  /-- An illegal word has been taken from the port (R66). -/
  | illegal (w : CmdWord) (s : State)
  /-- An instruction runs: a command taken from the port, or the exchange's next micro-operation. -/
  | run (i : Instr) (s : State)
  deriving DecidableEq, Repr

/-- The word `w` is presented and taken from the port: it is decoded before anything else is looked at (R182). -/
def takeWord (w : CmdWord) (s : State) : Action :=
  match decode w with
  | .ok i => .run i s
  | .error _ => .illegal w s

/-- No command is presented: an exchange in progress makes its next call (R145), a waiting block waits (R202). -/
def noCommand (s : State) : Action :=
  if s.busy then .run (selectMicroOp s.mode (currentBit s)) s else .wait s

/-- The next step's action: a faulted block takes none (R184); otherwise the host's next move decides. -/
def nextAction (s : State) : Action :=
  if s.fault ≠ 0#3 then .stopped s.fault
  else
    match s.inbox with
    | [] => noCommand s
    | .pause :: rest => noCommand { s with inbox := rest }
    | .present w :: rest => takeWord w { s with inbox := rest }
    | .issue w :: rest => if s.busy then noCommand s else takeWord w { s with inbox := rest }

/-- R183: where a command took a fault, the step's outcome is that fault, with the offending command. -/
def reportFault (off : Offender) (o : Host.Outcome State Fault Refusal) : Host.Outcome State Fault Refusal :=
  match o with
  | .next t =>
    match faultOfCode t.fault with
    | some f => .fault (.raised f off t)
    | none => .next t
  | .fault r => .fault r
  | .refused r => .refused r

/-- A word stored where the next step takes its instruction: it is presented on the port at once. -/
def presentWord (w : CmdWord) (s : State) : State := { s with inbox := .present w :: s.inbox }

/-- The first call of the waveform of mode `m` placed before the next step, for the data bit 0: the last bit of an
exchange of 0, with no command presented (log 13). -/
def placeMicroOp (m : Mode) (s : State) : State :=
  { s with mode := m, busy := true, xi := 0, xdout := 0#32, xstep := 0, inbox := .pause :: s.inbox }

end Sys2Proof.Machine
end

