-- ==== Sys2Proof/Machine/Step.lean ====
section
/-! DEFINITION. The step of the block (spec 00 R13): the next state, a fault, or a refusal. -/

namespace Sys2Proof.Machine

/-- One step: one command, or one micro-step of an exchange (R145, R190). -/
def step (s : State) : Host.Outcome State Fault Refusal :=
  match nextAction s with
  | .stopped code => .fault (.stopped code)
  | .wait t => .next t
  | .illegal w t => reportFault (.word w) (.next (takeFault .illegal t))
  | .run i t => reportFault (.command i) (exec i t)

/-- `s` with the table row's word placed so that the very next step runs it: a command word on the command port, or,
for an internal row, an exchange at the first call of that mode's waveform (log 13). -/
def State.withFetchWord (s : State) (nbits w : Nat) : State :=
  if nbits ≤ 8 then placeMicroOp (BitVec.ofNat 2 w) s else presentWord (BitVec.ofNat 64 w) s

end Sys2Proof.Machine
end

