-- ==== Sys2Proof/Machine/Assembler.lean ====
section
/-! DEFINITION. The assembler's command forms (spec 30 R70) and pseudo-commands (30 R71): from a line of text to a
statement, from a statement to one command, from a command to its word. -/

namespace Sys2Proof.Machine

/-- The names of R70 and R71. -/
inductive AsmOp where
  | select
  | setfreq
  | setmode
  | xchg
  | status
  | cmddata
  | assert
  | deselect
  | setpolpha
  | cmd
  | data
  deriving DecidableEq, Repr

/-- A command or pseudo-command with its operands. -/
structure AsmStmt where
  op : AsmOp
  operands : List Nat
  deriving DecidableEq, Repr

/-- Why the assembler refuses a line; it then emits no word (R70). -/
inductive AsmError where
  /-- The line does not start with a name of R70 or R71. -/
  | unknownName
  /-- An operand is not a number of R70. -/
  | notANumber
  /-- The number of operands is wrong, or an operand is out of its range: "a syntax error". -/
  | operandRange
  deriving DecidableEq, Repr

/-- R71: each pseudo-command expands to exactly one command. A command stands for itself. -/
def expand : AsmStmt → Option AsmStmt
  | ⟨.assert, [dev]⟩ => some ⟨.select, [dev, 1]⟩
  | ⟨.deselect, [dev]⟩ => some ⟨.select, [dev, 0]⟩
  | ⟨.setpolpha, [cpol, cpha]⟩ =>
    if cpol < 2 ∧ cpha < 2 then some ⟨.setmode, [2 * cpol + cpha]⟩ else none
  | ⟨.cmd, [dev]⟩ => some ⟨.cmddata, [dev, 1]⟩
  | ⟨.data, [dev]⟩ => some ⟨.cmddata, [dev, 0]⟩
  | ⟨.select, ops⟩ => some ⟨.select, ops⟩
  | ⟨.setfreq, ops⟩ => some ⟨.setfreq, ops⟩
  | ⟨.setmode, ops⟩ => some ⟨.setmode, ops⟩
  | ⟨.xchg, ops⟩ => some ⟨.xchg, ops⟩
  | ⟨.status, ops⟩ => some ⟨.status, ops⟩
  | ⟨.cmddata, ops⟩ => some ⟨.cmddata, ops⟩
  | ⟨.assert, _⟩ => none
  | ⟨.deselect, _⟩ => none
  | ⟨.setpolpha, _⟩ => none
  | ⟨.cmd, _⟩ => none
  | ⟨.data, _⟩ => none

/-- R70: the command that a statement without pseudo-commands stands for, with every operand in its range. -/
def commandOf : AsmStmt → Option Instr
  | ⟨.select, [dev, a]⟩ =>
    if dev < 2 ^ 16 ∧ a < 2 then some (.select (BitVec.ofNat 16 dev) (a == 1)) else none
  | ⟨.setfreq, [hz]⟩ => if hz < 2 ^ 32 then some (.setfreq (BitVec.ofNat 32 hz)) else none
  | ⟨.setmode, [m]⟩ => if m < 2 ^ 8 then some (.setmode (BitVec.ofNat 8 m)) else none
  | ⟨.xchg, [x]⟩ => if x < 2 ^ 32 then some (.xchg (BitVec.ofNat 32 x)) else none
  | ⟨.status, [dev]⟩ => if dev < 2 ^ 16 then some (.status (BitVec.ofNat 16 dev)) else none
  | ⟨.cmddata, [dev, c]⟩ =>
    if dev < 2 ^ 16 ∧ c < 2 then some (.cmddata (BitVec.ofNat 16 dev) (c == 1)) else none
  | _ => none

/-- The word of a statement (R70, R71), or none: "The assembler refuses it and emits no word." -/
def assemble (a : AsmStmt) : Option CmdWord :=
  ((expand a).bind commandOf).bind encode

/-! The text of a line (R70). What R70 leaves open of it is named in log 16. -/

/-- A blank between the parts of a line. -/
def isBlank (c : Char) : Bool := c == ' ' || c == '\t'

/-- The characters before a comment, which `;` starts. -/
def beforeComment : List Char → List Char
  | [] => []
  | c :: cs => if c == ';' then [] else c :: beforeComment cs

/-- The text without blanks at its two ends. -/
def trimBlanks (cs : List Char) : List Char :=
  ((cs.dropWhile isBlank).reverse.dropWhile isBlank).reverse

/-- The parts between commas. -/
def splitCommas : List Char → List (List Char)
  | [] => [[]]
  | c :: cs =>
    if c == ',' then [] :: splitCommas cs
    else
      match splitCommas cs with
      | [] => [[c]]
      | part :: parts => (c :: part) :: parts

/-- The value of a digit in a base. -/
def digitValue (base : Nat) (c : Char) : Option Nat :=
  let v :=
    if '0' ≤ c ∧ c ≤ '9' then c.toNat - 48
    else if 'a' ≤ c ∧ c ≤ 'f' then c.toNat - 87
    else if 'A' ≤ c ∧ c ≤ 'F' then c.toNat - 55
    else 16
  if v < base then some v else none

/-- Further digits after a first one, `_` allowed as a separator. -/
def moreDigits (base : Nat) : Nat → List Char → Option Nat
  | acc, [] => some acc
  | acc, c :: cs =>
    if c == '_' then moreDigits base acc cs
    else
      match digitValue base c with
      | some v => moreDigits base (base * acc + v) cs
      | none => none

/-- Digits of a base, of which there is at least one. -/
def digits (base : Nat) : List Char → Option Nat
  | [] => none
  | c :: cs =>
    match digitValue base c with
    | some v => moreDigits base v cs
    | none => none

/-- A number: decimal, or `0x` hexadecimal. -/
def number : List Char → Option Nat
  | '0' :: 'x' :: cs => digits 16 cs
  | cs => digits 10 cs

/-- The numbers of a list of operands, if each is one. -/
def numbers : List (List Char) → Option (List Nat)
  | [] => some []
  | p :: ps =>
    match number (trimBlanks p), numbers ps with
    | some n, some ns => some (n :: ns)
    | _, _ => none

/-- The names of R70 and R71 as they are spelled there. -/
def opNames : List (List Char × AsmOp) :=
  [(['S', 'E', 'L', 'E', 'C', 'T'], .select),
   (['S', 'E', 'T', 'F', 'R', 'E', 'Q'], .setfreq),
   (['S', 'E', 'T', 'M', 'O', 'D', 'E'], .setmode),
   (['X', 'C', 'H', 'G'], .xchg),
   (['S', 'T', 'A', 'T', 'U', 'S'], .status),
   (['C', 'M', 'D', 'D', 'A', 'T', 'A'], .cmddata),
   (['A', 'S', 'S', 'E', 'R', 'T'], .assert),
   (['D', 'E', 'S', 'E', 'L', 'E', 'C', 'T'], .deselect),
   (['S', 'E', 'T', 'P', 'O', 'L', 'P', 'H', 'A'], .setpolpha),
   (['C', 'M', 'D'], .cmd),
   (['D', 'A', 'T', 'A'], .data)]

/-- The statement of a line without blanks at its ends and without a comment. -/
def parseStmt (line : List Char) : Except AsmError AsmStmt :=
  match opNames.find? (fun p => p.1 == line.takeWhile (fun c => !isBlank c)) with
  | none => .error .unknownName
  | some p =>
    match numbers (splitCommas (line.dropWhile (fun c => !isBlank c))) with
    | none => .error .notANumber
    | some ns => .ok ⟨p.2, ns⟩

/-- One line of text (R70): no word for a line that holds only blanks or a comment. -/
def assembleLine (line : List Char) : Except AsmError (Option CmdWord) :=
  if (trimBlanks (beforeComment line)).isEmpty then .ok none
  else
    match parseStmt (trimBlanks (beforeComment line)) with
    | .error e => .error e
    | .ok a =>
      match assemble a with
      | some w => .ok (some w)
      | none => .error .operandRange

end Sys2Proof.Machine
end

