-- ==== Sys2Proof/Machine/Construct.lean ====
section
/-! DEFINITION. Construction, the block's reset (spec 70 R200, R201; 00 R7). -/

namespace Sys2Proof.Machine

/-- The state before construction's two commands run (R200). `MODE` and `HOLD` have no value yet (log 15). -/
def unconstructed (c : Config) : State where
  cfg := c
  mode := Config.unsetMode
  hold := Config.unsetHold
  fault := 0#3
  busy := false
  xi := 0
  xacc := 0#32
  xdout := 0#32
  xstep := 0
  xsmp := false
  sckLvl := none
  mosiLvl := none
  trace := []
  responses := []
  inbox := []
  draws := 0

/-- Construction's commands return their responses to nobody (R200: "response discarded"). -/
def discardResponses (s : State) : State := { s with responses := [] }

/-- `CONSTRUCT(config, CAP)` (R200): a refused configuration gives no block (R7). Otherwise SETMODE(`RESET_MODE`), and,
unless that faulted (R201), SETFREQ(`RESET_FREQ_HZ`). A faulted construction gives a block that takes no step. -/
def construct (c : Config) : Host.Outcome State Fault Refusal :=
  if c.problems ≠ [] then .refused (.configuration c.problems)
  else
    match execSetmode (BitVec.ofNat 8 c.resetMode) (unconstructed c) with
    | .next s =>
      if s.fault ≠ 0#3 then .next s
      else
        match execSetfreq c.resetFreqHz s with
        | .next t => .next (discardResponses t)
        | .fault r => .fault r
        | .refused r => .refused r
    | .fault r => .fault r
    | .refused r => .refused r

end Sys2Proof.Machine
end

