-- ==== Sys2Proof/Safety.lean ====
section
/-! DEFINITION. What the claims are stated with: when a command executes, the invariant of the block, runs, what the
spec observes of a state, and the successful end of a run (spec 41 R107, 70 R210). -/

namespace Sys2Proof.Machine

/-- The block takes a command: it is not faulted (R184) and no XCHG is in progress (R191). -/
abbrev Ready (s : State) : Prop := s.fault = 0#3 ∧ s.busy = false

/-- An XCHG is in progress on a block that is not faulted. -/
abbrev Exchanging (s : State) : Prop := s.fault = 0#3 ∧ s.busy = true

/-- No command is presented before the next step: the port holds nothing, or only what waits for the block. -/
def quietPort : List HostMove → Bool
  | [] => true
  | .pause :: _ => false
  | .present _ :: _ => false
  | .issue _ :: _ => true

/-- The clock level after the calls of a list, begun at level `v`. -/
def clockAfter : Level → List Call → Level
  | v, [] => v
  | _, .setClk u :: cs => clockAfter u cs
  | v, .setMosi _ :: cs => clockAfter v cs
  | v, .sample :: cs => clockAfter v cs
  | v, .hold :: cs => clockAfter v cs

/-- The calls of the waveform now running (R145). -/
def currentCalls (s : State) : List Call := liveCalls s.hold (waveform s.mode (currentBit s))

/-- An event keeps the bounds of R41. -/
def eventLegal (statusWidth : Nat) : Event → Bool
  | .delay n => decide (1 ≤ n)
  | .stat _ f => decide (f.toNat < 2 ^ statusWidth)
  | .sck _ => true
  | .mosi _ => true
  | .sample _ => true
  | .cs _ _ => true
  | .cmd _ _ => true

/-- The invariant of a block that was constructed and is not faulted. `MODE` is enabled (R21), `HOLD` is at most 500 000
(R22), the clock is at idle between commands (R107) and where the waveform's calls have left it within one (R128), the
loop position is in its range (R26), the accumulator holds only the bits sampled so far (R144), and every event keeps its
bounds (R41). -/
structure Inv (s : State) : Prop where
  accepted : s.cfg.Accepted
  notFaulted : s.fault = 0#3
  modeOk : modeEnabled s.cfg s.mode = true
  holdBound : s.hold.toNat ≤ 500000
  idleClock : s.busy = false → s.sckLvl = some (idle s.mode)
  position : s.busy = true → s.xi < width s.cfg ∧ s.xstep < (currentCalls s).length
  movingClock : s.busy = true → s.sckLvl = some (clockAfter (idle s.mode) ((currentCalls s).take s.xstep))
  accumulator : s.busy = true → s.xacc.toNat < 2 ^ (width s.cfg - 1 - s.xi)
  events : s.trace.all (eventLegal s.cfg.statusWidth) = true

/-- The last level a trace drives on the clock line (R27). -/
def lastSck : List Event → Option Level
  | [] => none
  | .sck v :: es => (lastSck es).or (some v)
  | .mosi _ :: es => lastSck es
  | .sample _ :: es => lastSck es
  | .delay _ :: es => lastSck es
  | .cs _ _ :: es => lastSck es
  | .stat _ _ :: es => lastSck es
  | .cmd _ _ :: es => lastSck es

/-- The last level a trace drives on the data-out line (R27). -/
def lastMosi : List Event → Option Level
  | [] => none
  | .mosi v :: es => (lastMosi es).or (some v)
  | .sck _ :: es => lastMosi es
  | .sample _ :: es => lastMosi es
  | .delay _ :: es => lastMosi es
  | .cs _ _ :: es => lastMosi es
  | .stat _ _ :: es => lastMosi es
  | .cmd _ _ :: es => lastMosi es

/-- R27: `SCK_LVL` and `MOSI_LVL` each record "the last level the block drove". -/
abbrev LevelsRecorded (s : State) : Prop := s.sckLvl = lastSck s.trace ∧ s.mosiLvl = lastMosi s.trace

/-- The samples of a trace, oldest first. -/
def samplesOf : List Event → List Level
  | [] => []
  | .sample v :: es => v :: samplesOf es
  | .sck _ :: es => samplesOf es
  | .mosi _ :: es => samplesOf es
  | .delay _ :: es => samplesOf es
  | .cs _ _ :: es => samplesOf es
  | .stat _ _ :: es => samplesOf es
  | .cmd _ _ :: es => samplesOf es

/-- The level of an `SCK` event. -/
def sckOf : Event → Option Level
  | .sck v => some v
  | .mosi _ => none
  | .sample _ => none
  | .delay _ => none
  | .cs _ _ => none
  | .stat _ _ => none
  | .cmd _ _ => none

/-- The level of a `MOSI` event. -/
def mosiOf : Event → Option Level
  | .mosi v => some v
  | .sck _ => none
  | .sample _ => none
  | .delay _ => none
  | .cs _ _ => none
  | .stat _ _ => none
  | .cmd _ _ => none

/-- The microseconds of a `DELAY` event. -/
def delayOf : Event → Option Nat
  | .delay n => some n
  | .sck _ => none
  | .mosi _ => none
  | .sample _ => none
  | .cs _ _ => none
  | .stat _ _ => none
  | .cmd _ _ => none

/-- The number that a list of bits spells, its first bit the most significant (R43, R144). -/
def msbFirst (bits : List Level) : Nat := bits.foldl (fun n b => 2 * n + b.toNat) 0

/-- `n` steps. -/
def runSteps : Nat → State → Host.Outcome State Fault Refusal
  | 0, s => .next s
  | n + 1, s =>
    match step s with
    | .next t => runSteps n t
    | .fault r => .fault r
    | .refused r => .refused r

/-- One micro-operation, executed `n` times: the micro-steps of its waveform. -/
def execTimes (i : Instr) : Nat → State → Host.Outcome State Fault Refusal
  | 0, s => .next s
  | n + 1, s =>
    match exec i s with
    | .next t => execTimes i n t
    | .fault r => .fault r
    | .refused r => .refused r

/-- How many calls a waveform makes: 6, or 4 when `HOLD` = 0 (R128, R145). -/
def callsPerBit (hold : Data) : Nat := if hold = 0#32 then 4 else 6

/-- How many steps an XCHG takes: its start step and the calls of its `WIDTH` waveforms (R145, R146). -/
def exchangeSteps (s : State) : Nat := 1 + callsPerBit s.hold * width s.cfg

/-- `XCHG x` is presented next, to a block that takes it, and no other command until it ends: `rest` is what the host
still holds back. -/
abbrev ExchangeAhead (x : Data) (rest : List HostMove) (s : State) : Prop :=
  s.cfg.Accepted ∧ Ready s ∧ quietPort rest = true ∧ ∃ w, encode (.xchg x) = some w ∧ s.inbox = .present w :: rest

/-- The same block built in the fixed-width variant (R141). -/
def asFixed8 (s : State) : State := { s with cfg := { s.cfg with variant := .fixed8 } }

/-- The same host with an `XCHG y` in place of its next move. -/
def presentingXchg (y : Data) (rest : List HostMove) (s : State) : State :=
  { s with inbox := ((encode (.xchg y)).map HostMove.present).toList ++ rest }

/-- A state without the elements that hold no value while no XCHG runs (R26: "their values are unspecified"). -/
def visible (s : State) : State :=
  { s with xi := 0, xacc := 0#32, xdout := 0#32, xstep := 0, xsmp := false }

/-- The observation at the end of a run (R210). -/
structure Observation where
  trace : List Event
  responses : List Response
  mode : Mode
  hold : Data
  sckLvl : Option Level
  mosiLvl : Option Level
  deriving DecidableEq, Repr

def observe (s : State) : Observation :=
  ⟨s.trace, s.responses, s.mode, s.hold, s.sckLvl, s.mosiLvl⟩

/-- The successful end of a run (R210): the host has no move left, so its last command has returned; `BUSY` = 0 and
`FAULT` = 0. -/
abbrev EndOfRun (s : State) : Prop := s.inbox = [] ∧ s.busy = false ∧ s.fault = 0#3

end Sys2Proof.Machine
end

