-- ==== Sys2Proof/Certificates/Slice0/Obligations.lean ====
section
/-! DEFINITION. The statements about the model, for the provers. Each docstring names the rules of spec/ it formalises. -/

open Sys2Proof Sys2Proof.Machine

/-! Encoding (spec 30; 20 R43). -/

/-- R61: every legal word is one command, every command has one legal word, and the encoder gives it. The commands are
exactly the instructions that have a word. -/
def Obligations.EncodeAndDecodeAgree : Prop :=
  (∀ i : Instr, (encode i).isSome = i.isCommand) ∧
  ∀ (i : Instr) (w : CmdWord), encode i = some w ↔ decode w = .ok i

/-- R63, R64: the opcode selects the command, and each operand is its field as it stands, where the fields the command
does not use are zero. -/
def Obligations.DecodeReadsTheFields : Prop :=
  ∀ w : CmdWord, ∀ (op a : BitVec 8) (dev : DevId) (imm : Data),
    op = w.extractLsb' 0 8 → a = w.extractLsb' 8 8 → dev = w.extractLsb' 16 16 → imm = w.extractLsb' 32 32 →
    decode w =
      if op = 0x01#8 then
        if imm = 0#32 ∧ a.extractLsb' 1 7 = 0#7 then .ok (.select dev (a.getLsbD 0)) else .error .reservedBits
      else if op = 0x02#8 then
        if dev = 0#16 ∧ a = 0#8 then .ok (.setfreq imm) else .error .reservedBits
      else if op = 0x03#8 then
        if imm = 0#32 ∧ dev = 0#16 then .ok (.setmode a) else .error .reservedBits
      else if op = 0x04#8 then
        if dev = 0#16 ∧ a = 0#8 then .ok (.xchg imm) else .error .reservedBits
      else if op = 0x05#8 then
        if imm = 0#32 ∧ a = 0#8 then .ok (.status dev) else .error .reservedBits
      else if op = 0x06#8 then
        if imm = 0#32 ∧ a.extractLsb' 1 7 = 0#7 then .ok (.cmddata dev (a.getLsbD 0)) else .error .reservedBits
      else .error (.reservedOpcode op)

/-- R65: a word encodes a command exactly when it matches the command's row of masks. -/
def Obligations.WordMatchesItsRow : Prop :=
  ∀ w : CmdWord,
    ((∃ dev a, decode w = .ok (.select dev a)) ↔ w &&& 0xFFFFFFFF0000FEFF#64 = 0x0000000000000001#64) ∧
    ((∃ hz, decode w = .ok (.setfreq hz)) ↔ w &&& 0x00000000FFFFFFFF#64 = 0x0000000000000002#64) ∧
    ((∃ m, decode w = .ok (.setmode m)) ↔ w &&& 0xFFFFFFFFFFFF00FF#64 = 0x0000000000000003#64) ∧
    ((∃ x, decode w = .ok (.xchg x)) ↔ w &&& 0x00000000FFFFFFFF#64 = 0x0000000000000004#64) ∧
    ((∃ dev, decode w = .ok (.status dev)) ↔ w &&& 0xFFFFFFFF0000FFFF#64 = 0x0000000000000005#64) ∧
    ((∃ dev c, decode w = .ok (.cmddata dev c)) ↔ w &&& 0xFFFFFFFF0000FEFF#64 = 0x0000000000000006#64)

/-- R43: a word carried in bytes is little-endian, and decoding its bytes decodes it. -/
def Obligations.BytesAreLittleEndian : Prop :=
  ∀ w : CmdWord,
    (bytesOfWord w).length = 8 ∧
    (∀ k, k < 8 → (bytesOfWord w)[k]? = some (w.extractLsb' (8 * k) 8)) ∧
    wordOfBytes (bytesOfWord w) = some w ∧ decodeBytes (bytesOfWord w) = decode w

/-- Spec 95, section 2.6: words of every command decode as the spec lists them, or are illegal. -/
def Obligations.ListedWordsDecode : Prop :=
  decode 0x0000000000010101#64 = .ok (.select 1#16 true) ∧
  decode 0x00061A8000000002#64 = .ok (.setfreq 400000#32) ∧
  decode 0x0000000000000303#64 = .ok (.setmode 3#8) ∧
  decode 0x000000A500000004#64 = .ok (.xchg 0xA5#32) ∧
  decode 0x0000000012340005#64 = .ok (.status 0x1234#16) ∧
  decode 0x0000000000070106#64 = .ok (.cmddata 7#16 true) ∧
  decode 0x0000000000000007#64 = .error (.reservedOpcode 7#8) ∧
  decode 0x0000000000010201#64 = .error .reservedBits ∧
  decode 0x0000000100000703#64 = .error .reservedBits

/-- R69: the micro-operation of a step is the one `S.MODE` selects, for the bit `S.XDOUT[S.XI]`, and no command word
stands for one. -/
def Obligations.ModeSelectsTheMicroOperation : Prop :=
  (∀ d, selectMicroOp 0#2 d = .bitx0 d ∧ selectMicroOp 1#2 d = .bitx1 d ∧
    selectMicroOp 2#2 d = .bitx2 d ∧ selectMicroOp 3#2 d = .bitx3 d) ∧
  (∀ w d, decode w ≠ .ok (.bitx0 d) ∧ decode w ≠ .ok (.bitx1 d) ∧
    decode w ≠ .ok (.bitx2 d) ∧ decode w ≠ .ok (.bitx3 d)) ∧
  ∀ s, Exchanging s → quietPort s.inbox = true →
    nextAction s = .run (selectMicroOp s.mode (s.xdout.getLsbD s.xi)) s

/-! The step, faults and their priority (spec 60). -/

/-- R60: the word that the port offers is taken and its command is run: the step is that command's execution, and where
it takes a fault the step's outcome is the fault. The host's moves on the port are the model's form (log 8). -/
def Obligations.StepRunsTheTakenCommand : Prop :=
  ∀ (s : State) (w : CmdWord) (rest : List HostMove) (i : Instr) (t : State),
    s.fault = 0#3 → (s.inbox = .present w :: rest ∨ s.inbox = .issue w :: rest ∧ s.busy = false) →
    decode w = .ok i → exec i { s with inbox := rest } = .next t →
    (t.fault = 0#3 → step s = .next t) ∧
    ∀ f : FaultName, t.fault = f.code → step s = .fault (.raised f (.command i) t)

/-- R145: while an exchange is in progress and no command is presented, the step is the micro-operation that MODE
selects. The host's moves on the port are the model's form (log 8). -/
def Obligations.StepRunsTheNextMicroOperation : Prop :=
  ∀ s : State, Exchanging s →
    (quietPort s.inbox = true → step s = exec (selectMicroOp s.mode (s.xdout.getLsbD s.xi)) s) ∧
    ∀ rest, s.inbox = .pause :: rest →
      step s = exec (selectMicroOp s.mode (s.xdout.getLsbD s.xi)) { s with inbox := rest }

/-- R202, R210: a block with no command presented waits, and after a successful end of run nothing changes. That it
waits by a step that changes nothing is the model's choice (log 8). -/
def Obligations.IdleBlockWaits : Prop :=
  (∀ s, EndOfRun s → step s = .next s) ∧
  ∀ s rest, Ready s → s.inbox = .pause :: rest → step s = .next { s with inbox := rest }

/-- R184: a faulted block takes no step and no command. That the outcome is `stopped`, which is no new fault, is the
model's choice (log 11). -/
def Obligations.FaultedBlockTakesNoStep : Prop :=
  ∀ s : State, s.fault ≠ 0#3 →
    step s = .fault (.stopped s.fault) ∧ ∀ i, exec i s = .fault (.stopped s.fault)

/-- R183: a step that raises a fault writes the fault's code to `FAULT` and no other state, takes the offending word from
the port and names it, or its command. -/
def Obligations.RaisedFaultWritesOnlyFault : Prop :=
  ∀ (s : State) (f : FaultName) (off : Offender) (t : State), step s = .fault (.raised f off t) →
    s.fault = 0#3 ∧ t.fault = f.code ∧ t = { s with fault := f.code, inbox := t.inbox } ∧
    ∃ w, (s.inbox = .present w :: t.inbox ∨ s.inbox = .issue w :: t.inbox) ∧
      ((f = .illegal ∧ off = .word w ∧ ∃ e, decode w = .error e) ∨
       (f ≠ .illegal ∧ ∃ i, decode w = .ok i ∧ off = .command i))

/-- R181: the codes. -/
def Obligations.FaultCodesOfTheTable : Prop :=
  FaultName.illegal.code = 1#3 ∧ FaultName.freqZero.code = 2#3 ∧ FaultName.modeRange.code = 3#3 ∧
  FaultName.modeDisabled.code = 4#3 ∧ FaultName.unsupported.code = 5#3 ∧ FaultName.reentrant.code = 6#3 ∧
  faultOfCode 0#3 = none ∧ faultOfCode 7#3 = none

/-- R182: a presented word raises the first fault that applies: illegal, then reentrant, then the command's own. -/
def Obligations.FirstFaultInPriorityOrder : Prop :=
  ∀ (s : State) (w : CmdWord) (rest : List HostMove), s.fault = 0#3 → s.inbox = .present w :: rest →
    (∀ e, decode w = .error e →
      step s = .fault (.raised .illegal (.word w) { s with inbox := rest, fault := 1#3 })) ∧
    ∀ i, decode w = .ok i →
      (s.busy = true →
        step s = .fault (.raised .reentrant (.command i) { s with inbox := rest, fault := 6#3 })) ∧
      (s.busy = false →
        (i = .setfreq 0#32 →
          step s = .fault (.raised .freqZero (.command i) { s with inbox := rest, fault := 2#3 })) ∧
        (∀ m, i = .setmode m → 3 < m.toNat →
          step s = .fault (.raised .modeRange (.command i) { s with inbox := rest, fault := 3#3 })) ∧
        (∀ m, i = .setmode m → m.toNat ≤ 3 → modeEnabled s.cfg (m.setWidth 2) = false →
          step s = .fault (.raised .modeDisabled (.command i) { s with inbox := rest, fault := 4#3 })) ∧
        (∀ dev c, i = .cmddata dev c → s.cfg.cmddataSupported = false →
          step s = .fault (.raised .unsupported (.command i) { s with inbox := rest, fault := 5#3 })))

/-- R191: any command on a busy block raises `F_REENTRANT`, writes nothing else and abandons the exchange. -/
def Obligations.AnyCommandWhileBusyIsReentrant : Prop :=
  ∀ (s : State) (i : Instr), Exchanging s → i.isCommand = true → exec i s = .next { s with fault := 6#3 }

/-! The timing calculator (spec 40). -/

/-- R80 to R84: SETFREQ on a block that is not faulted. -/
def Obligations.SetfreqWritesHoldAndAnswersAchieved : Prop :=
  ∀ (s : State) (hz : Data) (per pns h : Nat), s.fault = 0#3 →
    per = (1000000000 + hz.toNat / 2) / hz.toNat →
    pns = (if per > s.cfg.overheadNs then per - s.cfg.overheadNs else 0) →
    h = ((pns + 1) / 2 + 500) / 1000 →
    exec (.setfreq hz) s =
      if s.busy = true then .next { s with fault := 6#3 }
      else if hz = 0#32 then .next { s with fault := 2#3 }
      else .next { s with
        hold := BitVec.ofNat 32 h
        responses := s.responses ++ [.value (BitVec.ofNat 32 (1000000000 / (2000 * h + s.cfg.overheadNs)))] }

/-- Spec 95, section 2.1: rows of the calculator's table at an overhead of 100 ns. -/
def Obligations.CalculatorTableRows : Prop :=
  ∀ row ∈ ([(1, 500000, 0), (3, 166667, 2), (1001, 499, 1001), (322736, 2, 243902), (322737, 1, 476190),
      (400000, 1, 476190), (910332, 1, 476190), (910333, 0, 10000000), (20000000, 0, 10000000),
      (4294967295, 0, 10000000)] : List (Nat × Nat × Nat)),
    holdTime 100 row.1 = row.2.1 ∧ achieved 100 row.2.1 = row.2.2

/-- R86 (a): the range of the hold time. -/
def Obligations.HoldTimeIsAtMostHalfASecond : Prop :=
  ∀ overhead hz : Nat, 1 ≤ overhead → overhead ≤ 1000000000 → 1 ≤ hz →
    holdTime overhead hz ≤ 500000 ∧ (overhead ≤ 1001 → holdTime overhead 1 = 500000)

/-- R86 (b): a higher request gives no longer period, no longer hold and no lower achieved frequency. -/
def Obligations.CalculatorIsMonotone : Prop :=
  ∀ overhead a b : Nat, 1 ≤ overhead → overhead ≤ 1000000000 → 1 ≤ a → a ≤ b →
    period b ≤ period a ∧ holdTime overhead b ≤ holdTime overhead a ∧
    achieved overhead (holdTime overhead a) ≤ achieved overhead (holdTime overhead b)

/-- R86 (c), its first part: the ceiling, which a hold of 0 reaches. -/
def Obligations.AchievedStaysBelowTheCeiling : Prop :=
  ∀ overhead h : Nat, 1 ≤ overhead → overhead ≤ 1000000000 →
    achieved overhead h ≤ 1000000000 / overhead ∧ achieved overhead 0 = 1000000000 / overhead

/-- R86 (c), its second part as the spec words it, "with equality exactly when `h` = 0". It is expected to fail: at
large overheads two holds give the same whole number of Hz (log 19). -/
def Obligations.CeilingIsReachedOnlyAtHoldZero : Prop :=
  ∀ overhead h : Nat, 1 ≤ overhead → overhead ≤ 1000000000 →
    (achieved overhead h = 1000000000 / overhead ↔ h = 0)

/-- R83: the two-stage rounding differs from a single rounding exactly where `pns mod 2000` = 999. -/
def Obligations.TwoStageRoundingDiffersAt999 : Prop :=
  ∀ pns : Nat, roundHold pns ≠ (pns + 1000) / 2000 ↔ pns % 2000 = 999

/-- R87: no intermediate value reaches 2^32, and 32-bit unsigned arithmetic gives the exact results. -/
def Obligations.ThirtyTwoBitCalculatorAgrees : Prop :=
  ∀ overhead hz : Data, 1 ≤ overhead.toNat → overhead.toNat ≤ 1000000000 → hz ≠ 0#32 →
    1000000000 + hz.toNat / 2 ≤ 3147483647 ∧
    remainingNs overhead.toNat hz.toNat + 1 ≤ 1000000000 ∧
    2000 * holdTime overhead.toNat hz.toNat + overhead.toNat ≤ 2000000000 ∧
    (period32 hz).toNat = period hz.toNat ∧
    (remaining32 overhead hz).toNat = remainingNs overhead.toNat hz.toNat ∧
    (hold32 overhead hz).toNat = holdTime overhead.toNat hz.toNat ∧
    (achieved32 overhead (hold32 overhead hz)).toNat =
      achieved overhead.toNat (holdTime overhead.toNat hz.toNat)

/-! The mode selector (spec 41). -/

/-- R100, R103 to R105: SETMODE on a block that is not faulted. The clock is driven to `m[1]` every time. -/
def Obligations.SetmodeDrivesIdleAndSelects : Prop :=
  ∀ (s : State) (m : BitVec 8), s.fault = 0#3 →
    exec (.setmode m) s =
      if s.busy = true then .next { s with fault := 6#3 }
      else if m.toNat > 3 then .next { s with fault := 3#3 }
      else if modeEnabled s.cfg (m.setWidth 2) = false then .next { s with fault := 4#3 }
      else .next { s with
        mode := m.setWidth 2
        sckLvl := some (m.getLsbD 1)
        trace := s.trace ++ [.sck (m.getLsbD 1)]
        responses := s.responses ++ [.noValue] }

/-- R14, R101: polarity, phase and idle level of the four modes. -/
def Obligations.PolarityAndPhaseOfTheModes : Prop :=
  (cpol 0#2 = false ∧ cpha 0#2 = false) ∧ (cpol 1#2 = false ∧ cpha 1#2 = true) ∧
  (cpol 2#2 = true ∧ cpha 2#2 = false) ∧ (cpol 3#2 = true ∧ cpha 3#2 = true) ∧
  ∀ m : Mode, idle m = cpol m

/-! The waveforms (spec 42). -/

/-- R121: the micro-steps of BITX0 make its events, in order, drive the lines as its rule says, and end the bit. -/
def Obligations.Bitx0MakesItsWaveform : Prop :=
  ∀ (s : State) (d v : Level), Exchanging s → s.xstep = 0 →
    v = drawSample s.cfg.cap.sample s.draws (some d) (s.trace ++ [.mosi d, .sck true]) →
    (s.hold = 0#32 → execTimes (.bitx0 d) 4 s = .next (finishBit { s with
      xstep := 4, xsmp := v, draws := s.draws + 1, sckLvl := some false, mosiLvl := some d
      trace := s.trace ++ [.mosi d, .sck true, .sample v, .sck false] })) ∧
    (s.hold ≠ 0#32 → execTimes (.bitx0 d) 6 s = .next (finishBit { s with
      xstep := 6, xsmp := v, draws := s.draws + 1, sckLvl := some false, mosiLvl := some d
      trace := s.trace ++ [.mosi d, .sck true, .sample v, .delay s.hold.toNat, .sck false,
        .delay s.hold.toNat] }))

/-- R122: the micro-steps of BITX1. -/
def Obligations.Bitx1MakesItsWaveform : Prop :=
  ∀ (s : State) (d v u : Level), Exchanging s → s.xstep = 0 →
    v = drawSample s.cfg.cap.sample s.draws (some d) (s.trace ++ [.sck true, .mosi d, .sck false]) →
    u = drawSample s.cfg.cap.sample s.draws (some d)
      (s.trace ++ [.sck true, .mosi d, .delay s.hold.toNat, .sck false]) →
    (s.hold = 0#32 → execTimes (.bitx1 d) 4 s = .next (finishBit { s with
      xstep := 4, xsmp := v, draws := s.draws + 1, sckLvl := some false, mosiLvl := some d
      trace := s.trace ++ [.sck true, .mosi d, .sck false, .sample v] })) ∧
    (s.hold ≠ 0#32 → execTimes (.bitx1 d) 6 s = .next (finishBit { s with
      xstep := 6, xsmp := u, draws := s.draws + 1, sckLvl := some false, mosiLvl := some d
      trace := s.trace ++ [.sck true, .mosi d, .delay s.hold.toNat, .sck false, .sample u,
        .delay s.hold.toNat] }))

/-- R123: the micro-steps of BITX2. -/
def Obligations.Bitx2MakesItsWaveform : Prop :=
  ∀ (s : State) (d v : Level), Exchanging s → s.xstep = 0 →
    v = drawSample s.cfg.cap.sample s.draws (some d) (s.trace ++ [.mosi d, .sck false]) →
    (s.hold = 0#32 → execTimes (.bitx2 d) 4 s = .next (finishBit { s with
      xstep := 4, xsmp := v, draws := s.draws + 1, sckLvl := some true, mosiLvl := some d
      trace := s.trace ++ [.mosi d, .sck false, .sample v, .sck true] })) ∧
    (s.hold ≠ 0#32 → execTimes (.bitx2 d) 6 s = .next (finishBit { s with
      xstep := 6, xsmp := v, draws := s.draws + 1, sckLvl := some true, mosiLvl := some d
      trace := s.trace ++ [.mosi d, .sck false, .sample v, .delay s.hold.toNat, .sck true,
        .delay s.hold.toNat] }))

/-- R124: the micro-steps of BITX3. -/
def Obligations.Bitx3MakesItsWaveform : Prop :=
  ∀ (s : State) (d v u : Level), Exchanging s → s.xstep = 0 →
    v = drawSample s.cfg.cap.sample s.draws (some d) (s.trace ++ [.sck false, .mosi d, .sck true]) →
    u = drawSample s.cfg.cap.sample s.draws (some d)
      (s.trace ++ [.sck false, .mosi d, .delay s.hold.toNat, .sck true]) →
    (s.hold = 0#32 → execTimes (.bitx3 d) 4 s = .next (finishBit { s with
      xstep := 4, xsmp := v, draws := s.draws + 1, sckLvl := some true, mosiLvl := some d
      trace := s.trace ++ [.sck false, .mosi d, .sck true, .sample v] })) ∧
    (s.hold ≠ 0#32 → execTimes (.bitx3 d) 6 s = .next (finishBit { s with
      xstep := 6, xsmp := u, draws := s.draws + 1, sckLvl := some true, mosiLvl := some d
      trace := s.trace ++ [.sck false, .mosi d, .delay s.hold.toNat, .sck true, .sample u,
        .delay s.hold.toNat] }))

/-- R120, R145: within a waveform every micro-operation makes the call that `S.XSTEP` counts to, and completes; after the
last call the bit is finished. That it stops by name outside an exchange, or past its last call, is the model's choice
(log 12). -/
def Obligations.MicroOperationMakesTheCountedCall : Prop :=
  ∀ (s : State) (d : Level), s.fault = 0#3 →
    ∀ p ∈ [(Instr.bitx0 d, bitx0Calls d), (Instr.bitx1 d, bitx1Calls d), (Instr.bitx2 d, bitx2Calls d),
      (Instr.bitx3 d, bitx3Calls d)],
    (s.busy = true → s.xstep < (if s.hold = 0#32 then 4 else 6) →
      ∃ c, (if s.hold = 0#32 then p.2.filter (· ≠ .hold) else p.2)[s.xstep]? = some c ∧
        exec p.1 s = .next
          (if s.xstep + 1 = (if s.hold = 0#32 then 4 else 6) then
            finishBit { performCall c s with xstep := s.xstep + 1 }
          else { performCall c s with xstep := s.xstep + 1 })) ∧
    ((s.busy = false ∨ (if s.hold = 0#32 then 4 else 6) ≤ s.xstep) → exec p.1 s = .refused .outsideExchange)

/-- R125: the four waveforms are one parameterised sequence of calls. -/
def Obligations.WaveformsAreOneParameterisedForm : Prop :=
  ∀ (m : Mode) (d : Level),
    waveform m d =
      if m.getLsbD 0 = false then
        [.setMosi d, .setClk (!m.getLsbD 1), .sample, .hold, .setClk (m.getLsbD 1), .hold]
      else [.setClk (!m.getLsbD 1), .setMosi d, .hold, .setClk (m.getLsbD 1), .sample, .hold]

/-- R128 (a) to (f): the shape of every bit, in the events that its micro-steps append. -/
def Obligations.ShapeOfEveryBit : Prop :=
  ∀ (s : State) (m : Mode) (d : Level), Exchanging s → s.xstep = 0 →
    ∃ t es before after v,
      execTimes (selectMicroOp m d) (if s.hold = 0#32 then 4 else 6) s = .next t ∧
      t.trace = s.trace ++ es ∧
      es.filterMap sckOf = [!idle m, idle m] ∧
      es.filterMap mosiOf = [d] ∧
      samplesOf es = [v] ∧
      es.filterMap delayOf = (if s.hold = 0#32 then [] else [s.hold.toNat, s.hold.toNat]) ∧
      es.length = (if s.hold = 0#32 then 4 else 6) ∧
      es = before ++ [.sck (if cpha m then idle m else !idle m), .sample v] ++ after ∧
      after.filterMap mosiOf = [] ∧
      es.take 2 = (if cpha m then [.sck (!idle m), .mosi d] else [.mosi d, .sck (!idle m)]) ∧
      t.sckLvl = some (idle m)

/-! The word exchange (spec 43). -/

/-- R145's start step, and R191 for it: XCHG on a block that is not faulted. -/
def Obligations.XchgStartsTheExchange : Prop :=
  ∀ (s : State) (x : Data), s.fault = 0#3 →
    exec (.xchg x) s =
      if s.busy = true then .next { s with fault := 6#3 }
      else .next { s with
        busy := true, xdout := x, xacc := 0#32
        xi := (match s.cfg.variant with | .fixed8 => 8 | .variable => s.cfg.widthCfg) - 1
        xstep := 0 }

/-- R145: with no other command presented, the micro-steps give the same trace, state and response as the whole-command
form of R140, after one start step and the calls of `WIDTH` waveforms. -/
def Obligations.MicroStepsEqualTheWholeCommand : Prop :=
  ∀ (x : Data) (rest : List HostMove) (s : State), ExchangeAhead x rest s →
    ∃ t, runSteps (1 + (if s.hold = 0#32 then 4 else 6) * width s.cfg) s = .next t ∧
      visible t = visible (wholeExchange x { s with inbox := rest })

/-- R144: the response is the number that the sampled bits spell, most significant first, from an accumulator of 0. -/
def Obligations.ResponseIsTheSampledBits : Prop :=
  ∀ (x : Data) (rest : List HostMove) (s : State), ExchangeAhead x rest s →
    ∃ t es r, runSteps (exchangeSteps s) s = .next t ∧ t.busy = false ∧
      t.trace = s.trace ++ es ∧ t.responses = s.responses ++ [.value r] ∧
      (samplesOf es).length = width s.cfg ∧ r.toNat = msbFirst (samplesOf es) ∧ r.toNat < 2 ^ width s.cfg

/-- R144: the bits of the data word above `WIDTH`-1 are never read: two words that agree below give the same run. -/
def Obligations.HighBitsAreNeverSent : Prop :=
  ∀ (x y : Data) (rest : List HostMove) (s : State), ExchangeAhead x rest s →
    x.toNat % 2 ^ width s.cfg = y.toNat % 2 ^ width s.cfg →
    ∃ t u, runSteps (exchangeSteps s) s = .next t ∧
      runSteps (exchangeSteps s) (presentingXchg y rest s) = .next u ∧ visible t = visible u

/-- R43, R44: the bits driven on the data-out line are the data word's bits below `WIDTH`, the most significant first. -/
def Obligations.WordIsSentMsbFirst : Prop :=
  ∀ (x : Data) (rest : List HostMove) (s : State), ExchangeAhead x rest s →
    ∃ t es, runSteps (exchangeSteps s) s = .next t ∧ t.trace = s.trace ++ es ∧
      es.filterMap mosiOf = (List.range (width s.cfg)).reverse.map (fun i => x.getLsbD i)

/-- R146: the counts of events and of delay per word. -/
def Obligations.CountsOfEventsPerWord : Prop :=
  ∀ (x : Data) (rest : List HostMove) (s : State), ExchangeAhead x rest s →
    ∃ t es, runSteps (exchangeSteps s) s = .next t ∧ t.trace = s.trace ++ es ∧
      (es.filterMap mosiOf).length = width s.cfg ∧
      (samplesOf es).length = width s.cfg ∧
      (es.filterMap sckOf).length = 2 * width s.cfg ∧
      es.filterMap delayOf = (if s.hold = 0#32 then [] else List.replicate (2 * width s.cfg) s.hold.toNat) ∧
      es.length = (if s.hold = 0#32 then 4 else 6) * width s.cfg ∧
      (es.filterMap delayOf).sum = 2 * width s.cfg * s.hold.toNat

/-- R147: under the loopback handle, XCHG returns the low `WIDTH` bits of its word, in every mode and at every hold. -/
def Obligations.LoopbackReturnsTheWord : Prop :=
  ∀ (x : Data) (rest : List HostMove) (s : State), ExchangeAhead x rest s → s.cfg.cap.sample = .loopback →
    ∃ t, runSteps (exchangeSteps s) s = .next t ∧
      t.responses = s.responses ++ [.value (BitVec.ofNat 32 (x.toNat % 2 ^ width s.cfg))]

/-- R148: every sample 1, every sample 0 (as on a data-in line tied high or low), and a data-in line that is the inverse of
the data-out line. -/
def Obligations.TiedAndInvertedDataIn : Prop :=
  ∀ (x : Data) (rest : List HostMove) (s : State), ExchangeAhead x rest s →
    ∃ t es r, runSteps (exchangeSteps s) s = .next t ∧ t.trace = s.trace ++ es ∧
      t.responses = s.responses ++ [.value r] ∧
      ((∀ v ∈ samplesOf es, v = true) → r.toNat = 2 ^ width s.cfg - 1) ∧
      ((∀ v ∈ samplesOf es, v = false) → r.toNat = 0) ∧
      (∀ b, s.cfg.cap.sample = .tied b → ∀ v ∈ samplesOf es, v = b) ∧
      (s.cfg.cap.sample = .inverter → r.toNat = (2 ^ width s.cfg - 1) - x.toNat % 2 ^ width s.cfg)

/-- R143: a `VARIABLE` block of width 8 and a `FIXED8` block run alike, step for step. -/
def Obligations.Fixed8EqualsVariableOfWidth8 : Prop :=
  ∀ (n : Nat) (s : State), s.cfg.variant = .variable → s.cfg.widthCfg = 8 →
    (∀ t, runSteps n s = .next t →
      runSteps n (asFixed8 s) = .next (asFixed8 t) ∧ observe (asFixed8 t) = observe t) ∧
    (∀ f off t, runSteps n s = .fault (.raised f off t) →
      runSteps n (asFixed8 s) = .fault (.raised f off (asFixed8 t)))

/-! Bus control (spec 44). -/

/-- R160: SELECT on a block that is not faulted, for any device id. -/
def Obligations.SelectForwardsTheCall : Prop :=
  ∀ (s : State) (dev : DevId) (a : Bool), s.fault = 0#3 →
    exec (.select dev a) s =
      if s.busy = true then .next { s with fault := 6#3 }
      else .next { s with trace := s.trace ++ [.cs dev a], responses := s.responses ++ [.noValue] }

/-- R161: STATUS on a block that is not faulted. The flags are the platform's and are returned unchanged where they are
below `2^STATUS_WIDTH`, as the platform owes (R189). That wider flags are taken modulo `2^STATUS_WIDTH`, on which the bound
for such a handle and the last clause rest, is the model's choice (log 6). The counter of draws is the model's own (log
5). -/
def Obligations.StatusReturnsThePlatformsFlags : Prop :=
  ∀ (s : State) (dev : DevId), s.fault = 0#3 →
    (s.busy = true → exec (.status dev) s = .next { s with fault := 6#3 }) ∧
    (s.busy = false → ∃ f : Data,
      exec (.status dev) s = .next { s with
        trace := s.trace ++ [.stat dev f], responses := s.responses ++ [.value f], draws := s.draws + 1 } ∧
      f.toNat < 2 ^ s.cfg.statusWidth ∧
      (∀ g, s.cfg.cap.status = .constant g → g.toNat < 2 ^ s.cfg.statusWidth → f = g) ∧
      (s.cfg.cap.status = .host →
        f.toNat = (Config.freeStatus s.draws s.trace dev).toNat % 2 ^ s.cfg.statusWidth % 2 ^ 32))

/-- R162: CMDDATA on a block that is not faulted. -/
def Obligations.CmddataForwardsOrIsUnsupported : Prop :=
  ∀ (s : State) (dev : DevId) (c : Bool), s.fault = 0#3 →
    exec (.cmddata dev c) s =
      if s.busy = true then .next { s with fault := 6#3 }
      else if s.cfg.cmddataSupported = false then .next { s with fault := 5#3 }
      else .next { s with trace := s.trace ++ [.cmd dev c], responses := s.responses ++ [.noValue] }

/-! Whole-machine rules (spec 10, 20) and the invariant. -/

/-- R21 to R27, R30: which instruction may write which element. -/
def Obligations.WhoWritesWhat : Prop :=
  ∀ (i : Instr) (s t : State), exec i s = .next t →
    t.cfg = s.cfg ∧ t.inbox = s.inbox ∧
    (t.mode ≠ s.mode → ∃ m, i = .setmode m) ∧
    (t.hold ≠ s.hold → ∃ hz, i = .setfreq hz) ∧
    (t.fault ≠ s.fault → s.fault = 0#3 ∧ i.isCommand = true ∧
      t = { s with fault := t.fault }) ∧
    ((t.busy, t.xi, t.xacc, t.xdout, t.xstep) ≠ (s.busy, s.xi, s.xacc, s.xdout, s.xstep) →
      (∃ x, i = .xchg x) ∨ i.isCommand = false) ∧
    (t.sckLvl ≠ s.sckLvl → (∃ m, i = .setmode m) ∨ i.isCommand = false) ∧
    (t.mosiLvl ≠ s.mosiLvl → i.isCommand = false) ∧
    (t.draws ≠ s.draws → (∃ dev, i = .status dev) ∨ i.isCommand = false)

/-- R28, R41, R42: the trace only grows, by at most one event a step, and so do the responses. -/
def Obligations.TraceAndResponsesOnlyGrow : Prop :=
  ∀ s t : State, step s = .next t →
    ∃ es rs, t.trace = s.trace ++ es ∧ es.length ≤ 1 ∧ t.responses = s.responses ++ rs ∧ rs.length ≤ 1

/-- R27: every step keeps SCK_LVL and MOSI_LVL the last levels driven. -/
def Obligations.LevelsStayTheLastDriven : Prop :=
  ∀ s t : State, LevelsRecorded s → step s = .next t → LevelsRecorded t

/-- R107 with R21, R22, R26, R41, R128, R144: every step keeps the invariant. -/
def Obligations.StepKeepsTheInvariant : Prop :=
  ∀ s t : State, Inv s → step s = .next t → Inv t

/-- From the invariant a step is never refused, and stops only with a fault that a command raised in that step. -/
def Obligations.InvariantStepsAreNeverRefused : Prop :=
  ∀ s : State, Inv s →
    (∃ t, step s = .next t) ∨ ∃ f off t, step s = .fault (.raised f off t)

/-- The invariant holds at reset, and so does R27's. -/
def Obligations.ResetMeetsTheInvariants : Prop :=
  Inv State.reset ∧ LevelsRecorded State.reset

/-! Construction (spec 70; 00 R7). -/

/-- R7: which configurations are refused; of every other one a block is constructed. -/
def Obligations.ConstructionRefusesBadConfigurations : Prop :=
  ∀ c : Config,
    ((c.overheadNs = 0 ∨ c.overheadNs > 1000000000 ∨
      (c.variant = .variable ∧ (c.widthCfg = 0 ∨ c.widthCfg > 32)) ∨
      ¬(1 ≤ c.statusWidth ∧ c.statusWidth ≤ 32) ∨ c.resetMode > 3 ∨ c.resetFreqHz = 0#32) →
      ∃ ps, construct c = .refused (.configuration ps)) ∧
    (¬(c.overheadNs = 0 ∨ c.overheadNs > 1000000000 ∨
      (c.variant = .variable ∧ (c.widthCfg = 0 ∨ c.widthCfg > 32)) ∨
      ¬(1 ≤ c.statusWidth ∧ c.statusWidth ≤ 32) ∨ c.resetMode > 3 ∨ c.resetFreqHz = 0#32) →
      ∃ s, construct c = .next s)

/-- R31, R200: the values after construction, where the reset mode is enabled. -/
def Obligations.ConstructionGivesTheResetValues : Prop :=
  ∀ (c : Config) (m : Mode), c.Accepted → m = BitVec.ofNat 2 c.resetMode → modeEnabled c m = true →
    ∃ s, construct c = .next s ∧ s.cfg = c ∧ s.mode = m ∧
      s.hold = BitVec.ofNat 32 (holdTime c.overheadNs c.resetFreqHz.toNat) ∧
      s.fault = 0#3 ∧ s.busy = false ∧ s.sckLvl = some (idle m) ∧ s.mosiLvl = none ∧
      s.trace = [.sck (idle m)] ∧ s.responses = []

/-- R201: construction with a disabled reset mode gives a block that is faulted from the start and takes no step. -/
def Obligations.ConstructionFaultsOnADisabledMode : Prop :=
  ∀ c : Config, c.Accepted → modeEnabled c (BitVec.ofNat 2 c.resetMode) = false →
    ∃ s, construct c = .next s ∧ s.fault = 4#3 ∧ s.trace = [] ∧ s.sckLvl = none ∧
      ∀ inbox, step { s with inbox := inbox } = .fault (.stopped 4#3)

/-- Every constructed block that is not faulted meets the invariants, and none is busy. -/
def Obligations.ConstructedBlocksMeetTheInvariants : Prop :=
  ∀ (c : Config) (s : State), construct c = .next s → s.fault = 0#3 →
    Inv s ∧ LevelsRecorded s ∧ s.busy = false

/-- The reset state is what construction gives for the configuration of R5's vectors. That State.reset has this
configuration, and the values of its hidden elements, are the model's choice (logs 2, 3). -/
def Obligations.ResetIsConstructed : Prop := construct Config.vectors = .next State.reset

/-! The assembler (spec 30 R70, R71). -/

/-- R70: each command form, and its refusal of an operand out of range. -/
def Obligations.AssemblerEncodesOrRefuses : Prop :=
  (∀ dev a, assemble ⟨.select, [dev, a]⟩ =
    if dev ≤ 65535 ∧ a ≤ 1 then encode (.select (BitVec.ofNat 16 dev) (a == 1)) else none) ∧
  (∀ hz, assemble ⟨.setfreq, [hz]⟩ =
    if hz ≤ 4294967295 then encode (.setfreq (BitVec.ofNat 32 hz)) else none) ∧
  (∀ m, assemble ⟨.setmode, [m]⟩ = if m ≤ 255 then encode (.setmode (BitVec.ofNat 8 m)) else none) ∧
  (∀ x, assemble ⟨.xchg, [x]⟩ =
    if x ≤ 4294967295 then encode (.xchg (BitVec.ofNat 32 x)) else none) ∧
  (∀ dev, assemble ⟨.status, [dev]⟩ =
    if dev ≤ 65535 then encode (.status (BitVec.ofNat 16 dev)) else none) ∧
  ∀ dev c, assemble ⟨.cmddata, [dev, c]⟩ =
    if dev ≤ 65535 ∧ c ≤ 1 then encode (.cmddata (BitVec.ofNat 16 dev) (c == 1)) else none

/-- R71: the pseudo-commands. SETPOLPHA takes polarities and phases of 0 and 1 only. -/
def Obligations.PseudoCommandsExpand : Prop :=
  ∀ n cpol cpha : Nat,
    assemble ⟨.assert, [n]⟩ = assemble ⟨.select, [n, 1]⟩ ∧
    assemble ⟨.deselect, [n]⟩ = assemble ⟨.select, [n, 0]⟩ ∧
    assemble ⟨.cmd, [n]⟩ = assemble ⟨.cmddata, [n, 1]⟩ ∧
    assemble ⟨.data, [n]⟩ = assemble ⟨.cmddata, [n, 0]⟩ ∧
    assemble ⟨.setpolpha, [cpol, cpha]⟩ =
      if cpol ≤ 1 ∧ cpha ≤ 1 then assemble ⟨.setmode, [2 * cpol + cpha]⟩ else none

/-- The assembler emits legal words only: every word it emits decodes to a command. -/
def Obligations.AssemblerEmitsLegalWords : Prop :=
  ∀ (a : AsmStmt) (w : CmdWord), assemble a = some w → ∃ i, decode w = .ok i ∧ i.isCommand = true
end

