-- ==== Sys2Proof/Laws/State.lean ====
section
/-! SUPPORT. One lemma per field of State and named update, true by rfl, so that no proof unfolds a record update. -/

namespace Sys2Proof.Machine
/-! appendEvent -/
@[simp] theorem appendEvent_cfg (e : Event) (s : State) : (appendEvent e s).cfg = s.cfg := rfl
@[simp] theorem appendEvent_mode (e : Event) (s : State) : (appendEvent e s).mode = s.mode := rfl
@[simp] theorem appendEvent_hold (e : Event) (s : State) : (appendEvent e s).hold = s.hold := rfl
@[simp] theorem appendEvent_fault (e : Event) (s : State) : (appendEvent e s).fault = s.fault := rfl
@[simp] theorem appendEvent_busy (e : Event) (s : State) : (appendEvent e s).busy = s.busy := rfl
@[simp] theorem appendEvent_xi (e : Event) (s : State) : (appendEvent e s).xi = s.xi := rfl
@[simp] theorem appendEvent_xacc (e : Event) (s : State) : (appendEvent e s).xacc = s.xacc := rfl
@[simp] theorem appendEvent_xdout (e : Event) (s : State) : (appendEvent e s).xdout = s.xdout := rfl
@[simp] theorem appendEvent_xstep (e : Event) (s : State) : (appendEvent e s).xstep = s.xstep := rfl
@[simp] theorem appendEvent_xsmp (e : Event) (s : State) : (appendEvent e s).xsmp = s.xsmp := rfl
@[simp] theorem appendEvent_sckLvl (e : Event) (s : State) : (appendEvent e s).sckLvl = s.sckLvl := rfl
@[simp] theorem appendEvent_mosiLvl (e : Event) (s : State) : (appendEvent e s).mosiLvl = s.mosiLvl := rfl
@[simp] theorem appendEvent_trace (e : Event) (s : State) : (appendEvent e s).trace = s.trace ++ [e] := rfl
@[simp] theorem appendEvent_responses (e : Event) (s : State) : (appendEvent e s).responses = s.responses := rfl
@[simp] theorem appendEvent_inbox (e : Event) (s : State) : (appendEvent e s).inbox = s.inbox := rfl
@[simp] theorem appendEvent_draws (e : Event) (s : State) : (appendEvent e s).draws = s.draws := rfl
/-! setClk -/
@[simp] theorem setClk_cfg (v : Level) (s : State) : (setClk v s).cfg = s.cfg := rfl
@[simp] theorem setClk_mode (v : Level) (s : State) : (setClk v s).mode = s.mode := rfl
@[simp] theorem setClk_hold (v : Level) (s : State) : (setClk v s).hold = s.hold := rfl
@[simp] theorem setClk_fault (v : Level) (s : State) : (setClk v s).fault = s.fault := rfl
@[simp] theorem setClk_busy (v : Level) (s : State) : (setClk v s).busy = s.busy := rfl
@[simp] theorem setClk_xi (v : Level) (s : State) : (setClk v s).xi = s.xi := rfl
@[simp] theorem setClk_xacc (v : Level) (s : State) : (setClk v s).xacc = s.xacc := rfl
@[simp] theorem setClk_xdout (v : Level) (s : State) : (setClk v s).xdout = s.xdout := rfl
@[simp] theorem setClk_xstep (v : Level) (s : State) : (setClk v s).xstep = s.xstep := rfl
@[simp] theorem setClk_xsmp (v : Level) (s : State) : (setClk v s).xsmp = s.xsmp := rfl
@[simp] theorem setClk_sckLvl (v : Level) (s : State) : (setClk v s).sckLvl = some v := rfl
@[simp] theorem setClk_mosiLvl (v : Level) (s : State) : (setClk v s).mosiLvl = s.mosiLvl := rfl
@[simp] theorem setClk_trace (v : Level) (s : State) : (setClk v s).trace = s.trace ++ [.sck v] := rfl
@[simp] theorem setClk_responses (v : Level) (s : State) : (setClk v s).responses = s.responses := rfl
@[simp] theorem setClk_inbox (v : Level) (s : State) : (setClk v s).inbox = s.inbox := rfl
@[simp] theorem setClk_draws (v : Level) (s : State) : (setClk v s).draws = s.draws := rfl
/-! setMosi -/
@[simp] theorem setMosi_cfg (v : Level) (s : State) : (setMosi v s).cfg = s.cfg := rfl
@[simp] theorem setMosi_mode (v : Level) (s : State) : (setMosi v s).mode = s.mode := rfl
@[simp] theorem setMosi_hold (v : Level) (s : State) : (setMosi v s).hold = s.hold := rfl
@[simp] theorem setMosi_fault (v : Level) (s : State) : (setMosi v s).fault = s.fault := rfl
@[simp] theorem setMosi_busy (v : Level) (s : State) : (setMosi v s).busy = s.busy := rfl
@[simp] theorem setMosi_xi (v : Level) (s : State) : (setMosi v s).xi = s.xi := rfl
@[simp] theorem setMosi_xacc (v : Level) (s : State) : (setMosi v s).xacc = s.xacc := rfl
@[simp] theorem setMosi_xdout (v : Level) (s : State) : (setMosi v s).xdout = s.xdout := rfl
@[simp] theorem setMosi_xstep (v : Level) (s : State) : (setMosi v s).xstep = s.xstep := rfl
@[simp] theorem setMosi_xsmp (v : Level) (s : State) : (setMosi v s).xsmp = s.xsmp := rfl
@[simp] theorem setMosi_sckLvl (v : Level) (s : State) : (setMosi v s).sckLvl = s.sckLvl := rfl
@[simp] theorem setMosi_mosiLvl (v : Level) (s : State) : (setMosi v s).mosiLvl = some v := rfl
@[simp] theorem setMosi_trace (v : Level) (s : State) : (setMosi v s).trace = s.trace ++ [.mosi v] := rfl
@[simp] theorem setMosi_responses (v : Level) (s : State) : (setMosi v s).responses = s.responses := rfl
@[simp] theorem setMosi_inbox (v : Level) (s : State) : (setMosi v s).inbox = s.inbox := rfl
@[simp] theorem setMosi_draws (v : Level) (s : State) : (setMosi v s).draws = s.draws := rfl
/-! delayCall -/
@[simp] theorem delayCall_cfg (n : Nat) (s : State) : (delayCall n s).cfg = s.cfg := rfl
@[simp] theorem delayCall_mode (n : Nat) (s : State) : (delayCall n s).mode = s.mode := rfl
@[simp] theorem delayCall_hold (n : Nat) (s : State) : (delayCall n s).hold = s.hold := rfl
@[simp] theorem delayCall_fault (n : Nat) (s : State) : (delayCall n s).fault = s.fault := rfl
@[simp] theorem delayCall_busy (n : Nat) (s : State) : (delayCall n s).busy = s.busy := rfl
@[simp] theorem delayCall_xi (n : Nat) (s : State) : (delayCall n s).xi = s.xi := rfl
@[simp] theorem delayCall_xacc (n : Nat) (s : State) : (delayCall n s).xacc = s.xacc := rfl
@[simp] theorem delayCall_xdout (n : Nat) (s : State) : (delayCall n s).xdout = s.xdout := rfl
@[simp] theorem delayCall_xstep (n : Nat) (s : State) : (delayCall n s).xstep = s.xstep := rfl
@[simp] theorem delayCall_xsmp (n : Nat) (s : State) : (delayCall n s).xsmp = s.xsmp := rfl
@[simp] theorem delayCall_sckLvl (n : Nat) (s : State) : (delayCall n s).sckLvl = s.sckLvl := rfl
@[simp] theorem delayCall_mosiLvl (n : Nat) (s : State) : (delayCall n s).mosiLvl = s.mosiLvl := rfl
@[simp] theorem delayCall_trace (n : Nat) (s : State) : (delayCall n s).trace = s.trace ++ [.delay n] := rfl
@[simp] theorem delayCall_responses (n : Nat) (s : State) : (delayCall n s).responses = s.responses := rfl
@[simp] theorem delayCall_inbox (n : Nat) (s : State) : (delayCall n s).inbox = s.inbox := rfl
@[simp] theorem delayCall_draws (n : Nat) (s : State) : (delayCall n s).draws = s.draws := rfl
/-! sampleCall -/
@[simp] theorem sampleCall_cfg (s : State) : (sampleCall s).cfg = s.cfg := rfl
@[simp] theorem sampleCall_mode (s : State) : (sampleCall s).mode = s.mode := rfl
@[simp] theorem sampleCall_hold (s : State) : (sampleCall s).hold = s.hold := rfl
@[simp] theorem sampleCall_fault (s : State) : (sampleCall s).fault = s.fault := rfl
@[simp] theorem sampleCall_busy (s : State) : (sampleCall s).busy = s.busy := rfl
@[simp] theorem sampleCall_xi (s : State) : (sampleCall s).xi = s.xi := rfl
@[simp] theorem sampleCall_xacc (s : State) : (sampleCall s).xacc = s.xacc := rfl
@[simp] theorem sampleCall_xdout (s : State) : (sampleCall s).xdout = s.xdout := rfl
@[simp] theorem sampleCall_xstep (s : State) : (sampleCall s).xstep = s.xstep := rfl
@[simp] theorem sampleCall_xsmp (s : State) : (sampleCall s).xsmp = sampleNow s := rfl
@[simp] theorem sampleCall_sckLvl (s : State) : (sampleCall s).sckLvl = s.sckLvl := rfl
@[simp] theorem sampleCall_mosiLvl (s : State) : (sampleCall s).mosiLvl = s.mosiLvl := rfl
@[simp] theorem sampleCall_trace (s : State) : (sampleCall s).trace = s.trace ++ [.sample (sampleNow s)] := rfl
@[simp] theorem sampleCall_responses (s : State) : (sampleCall s).responses = s.responses := rfl
@[simp] theorem sampleCall_inbox (s : State) : (sampleCall s).inbox = s.inbox := rfl
@[simp] theorem sampleCall_draws (s : State) : (sampleCall s).draws = s.draws + 1 := rfl
/-! selectCall -/
@[simp] theorem selectCall_cfg (dev : DevId) (a : Bool) (s : State) : (selectCall dev a s).cfg = s.cfg := rfl
@[simp] theorem selectCall_mode (dev : DevId) (a : Bool) (s : State) : (selectCall dev a s).mode = s.mode := rfl
@[simp] theorem selectCall_hold (dev : DevId) (a : Bool) (s : State) : (selectCall dev a s).hold = s.hold := rfl
@[simp] theorem selectCall_fault (dev : DevId) (a : Bool) (s : State) : (selectCall dev a s).fault = s.fault := rfl
@[simp] theorem selectCall_busy (dev : DevId) (a : Bool) (s : State) : (selectCall dev a s).busy = s.busy := rfl
@[simp] theorem selectCall_xi (dev : DevId) (a : Bool) (s : State) : (selectCall dev a s).xi = s.xi := rfl
@[simp] theorem selectCall_xacc (dev : DevId) (a : Bool) (s : State) : (selectCall dev a s).xacc = s.xacc := rfl
@[simp] theorem selectCall_xdout (dev : DevId) (a : Bool) (s : State) : (selectCall dev a s).xdout = s.xdout := rfl
@[simp] theorem selectCall_xstep (dev : DevId) (a : Bool) (s : State) : (selectCall dev a s).xstep = s.xstep := rfl
@[simp] theorem selectCall_xsmp (dev : DevId) (a : Bool) (s : State) : (selectCall dev a s).xsmp = s.xsmp := rfl
@[simp] theorem selectCall_sckLvl (dev : DevId) (a : Bool) (s : State) : (selectCall dev a s).sckLvl = s.sckLvl := rfl
@[simp] theorem selectCall_mosiLvl (dev : DevId) (a : Bool) (s : State) : (selectCall dev a s).mosiLvl = s.mosiLvl := rfl
@[simp] theorem selectCall_trace (dev : DevId) (a : Bool) (s : State) : (selectCall dev a s).trace = s.trace ++ [.cs dev a] := rfl
@[simp] theorem selectCall_responses (dev : DevId) (a : Bool) (s : State) : (selectCall dev a s).responses = s.responses := rfl
@[simp] theorem selectCall_inbox (dev : DevId) (a : Bool) (s : State) : (selectCall dev a s).inbox = s.inbox := rfl
@[simp] theorem selectCall_draws (dev : DevId) (a : Bool) (s : State) : (selectCall dev a s).draws = s.draws := rfl
/-! statusCall -/
@[simp] theorem statusCall_cfg (dev : DevId) (s : State) : (statusCall dev s).cfg = s.cfg := rfl
@[simp] theorem statusCall_mode (dev : DevId) (s : State) : (statusCall dev s).mode = s.mode := rfl
@[simp] theorem statusCall_hold (dev : DevId) (s : State) : (statusCall dev s).hold = s.hold := rfl
@[simp] theorem statusCall_fault (dev : DevId) (s : State) : (statusCall dev s).fault = s.fault := rfl
@[simp] theorem statusCall_busy (dev : DevId) (s : State) : (statusCall dev s).busy = s.busy := rfl
@[simp] theorem statusCall_xi (dev : DevId) (s : State) : (statusCall dev s).xi = s.xi := rfl
@[simp] theorem statusCall_xacc (dev : DevId) (s : State) : (statusCall dev s).xacc = s.xacc := rfl
@[simp] theorem statusCall_xdout (dev : DevId) (s : State) : (statusCall dev s).xdout = s.xdout := rfl
@[simp] theorem statusCall_xstep (dev : DevId) (s : State) : (statusCall dev s).xstep = s.xstep := rfl
@[simp] theorem statusCall_xsmp (dev : DevId) (s : State) : (statusCall dev s).xsmp = s.xsmp := rfl
@[simp] theorem statusCall_sckLvl (dev : DevId) (s : State) : (statusCall dev s).sckLvl = s.sckLvl := rfl
@[simp] theorem statusCall_mosiLvl (dev : DevId) (s : State) : (statusCall dev s).mosiLvl = s.mosiLvl := rfl
@[simp] theorem statusCall_trace (dev : DevId) (s : State) : (statusCall dev s).trace = s.trace ++ [.stat dev (statusNow dev s)] := rfl
@[simp] theorem statusCall_responses (dev : DevId) (s : State) : (statusCall dev s).responses = s.responses := rfl
@[simp] theorem statusCall_inbox (dev : DevId) (s : State) : (statusCall dev s).inbox = s.inbox := rfl
@[simp] theorem statusCall_draws (dev : DevId) (s : State) : (statusCall dev s).draws = s.draws + 1 := rfl
/-! cmdModeCall -/
@[simp] theorem cmdModeCall_cfg (dev : DevId) (c : Bool) (s : State) : (cmdModeCall dev c s).cfg = s.cfg := rfl
@[simp] theorem cmdModeCall_mode (dev : DevId) (c : Bool) (s : State) : (cmdModeCall dev c s).mode = s.mode := rfl
@[simp] theorem cmdModeCall_hold (dev : DevId) (c : Bool) (s : State) : (cmdModeCall dev c s).hold = s.hold := rfl
@[simp] theorem cmdModeCall_fault (dev : DevId) (c : Bool) (s : State) : (cmdModeCall dev c s).fault = s.fault := rfl
@[simp] theorem cmdModeCall_busy (dev : DevId) (c : Bool) (s : State) : (cmdModeCall dev c s).busy = s.busy := rfl
@[simp] theorem cmdModeCall_xi (dev : DevId) (c : Bool) (s : State) : (cmdModeCall dev c s).xi = s.xi := rfl
@[simp] theorem cmdModeCall_xacc (dev : DevId) (c : Bool) (s : State) : (cmdModeCall dev c s).xacc = s.xacc := rfl
@[simp] theorem cmdModeCall_xdout (dev : DevId) (c : Bool) (s : State) : (cmdModeCall dev c s).xdout = s.xdout := rfl
@[simp] theorem cmdModeCall_xstep (dev : DevId) (c : Bool) (s : State) : (cmdModeCall dev c s).xstep = s.xstep := rfl
@[simp] theorem cmdModeCall_xsmp (dev : DevId) (c : Bool) (s : State) : (cmdModeCall dev c s).xsmp = s.xsmp := rfl
@[simp] theorem cmdModeCall_sckLvl (dev : DevId) (c : Bool) (s : State) : (cmdModeCall dev c s).sckLvl = s.sckLvl := rfl
@[simp] theorem cmdModeCall_mosiLvl (dev : DevId) (c : Bool) (s : State) : (cmdModeCall dev c s).mosiLvl = s.mosiLvl := rfl
@[simp] theorem cmdModeCall_trace (dev : DevId) (c : Bool) (s : State) : (cmdModeCall dev c s).trace = s.trace ++ [.cmd dev c] := rfl
@[simp] theorem cmdModeCall_responses (dev : DevId) (c : Bool) (s : State) : (cmdModeCall dev c s).responses = s.responses := rfl
@[simp] theorem cmdModeCall_inbox (dev : DevId) (c : Bool) (s : State) : (cmdModeCall dev c s).inbox = s.inbox := rfl
@[simp] theorem cmdModeCall_draws (dev : DevId) (c : Bool) (s : State) : (cmdModeCall dev c s).draws = s.draws := rfl
/-! respond -/
@[simp] theorem respond_cfg (r : Response) (s : State) : (respond r s).cfg = s.cfg := rfl
@[simp] theorem respond_mode (r : Response) (s : State) : (respond r s).mode = s.mode := rfl
@[simp] theorem respond_hold (r : Response) (s : State) : (respond r s).hold = s.hold := rfl
@[simp] theorem respond_fault (r : Response) (s : State) : (respond r s).fault = s.fault := rfl
@[simp] theorem respond_busy (r : Response) (s : State) : (respond r s).busy = s.busy := rfl
@[simp] theorem respond_xi (r : Response) (s : State) : (respond r s).xi = s.xi := rfl
@[simp] theorem respond_xacc (r : Response) (s : State) : (respond r s).xacc = s.xacc := rfl
@[simp] theorem respond_xdout (r : Response) (s : State) : (respond r s).xdout = s.xdout := rfl
@[simp] theorem respond_xstep (r : Response) (s : State) : (respond r s).xstep = s.xstep := rfl
@[simp] theorem respond_xsmp (r : Response) (s : State) : (respond r s).xsmp = s.xsmp := rfl
@[simp] theorem respond_sckLvl (r : Response) (s : State) : (respond r s).sckLvl = s.sckLvl := rfl
@[simp] theorem respond_mosiLvl (r : Response) (s : State) : (respond r s).mosiLvl = s.mosiLvl := rfl
@[simp] theorem respond_trace (r : Response) (s : State) : (respond r s).trace = s.trace := rfl
@[simp] theorem respond_responses (r : Response) (s : State) : (respond r s).responses = s.responses ++ [r] := rfl
@[simp] theorem respond_inbox (r : Response) (s : State) : (respond r s).inbox = s.inbox := rfl
@[simp] theorem respond_draws (r : Response) (s : State) : (respond r s).draws = s.draws := rfl
/-! takeFault -/
@[simp] theorem takeFault_cfg (f : FaultName) (s : State) : (takeFault f s).cfg = s.cfg := rfl
@[simp] theorem takeFault_mode (f : FaultName) (s : State) : (takeFault f s).mode = s.mode := rfl
@[simp] theorem takeFault_hold (f : FaultName) (s : State) : (takeFault f s).hold = s.hold := rfl
@[simp] theorem takeFault_fault (f : FaultName) (s : State) : (takeFault f s).fault = f.code := rfl
@[simp] theorem takeFault_busy (f : FaultName) (s : State) : (takeFault f s).busy = s.busy := rfl
@[simp] theorem takeFault_xi (f : FaultName) (s : State) : (takeFault f s).xi = s.xi := rfl
@[simp] theorem takeFault_xacc (f : FaultName) (s : State) : (takeFault f s).xacc = s.xacc := rfl
@[simp] theorem takeFault_xdout (f : FaultName) (s : State) : (takeFault f s).xdout = s.xdout := rfl
@[simp] theorem takeFault_xstep (f : FaultName) (s : State) : (takeFault f s).xstep = s.xstep := rfl
@[simp] theorem takeFault_xsmp (f : FaultName) (s : State) : (takeFault f s).xsmp = s.xsmp := rfl
@[simp] theorem takeFault_sckLvl (f : FaultName) (s : State) : (takeFault f s).sckLvl = s.sckLvl := rfl
@[simp] theorem takeFault_mosiLvl (f : FaultName) (s : State) : (takeFault f s).mosiLvl = s.mosiLvl := rfl
@[simp] theorem takeFault_trace (f : FaultName) (s : State) : (takeFault f s).trace = s.trace := rfl
@[simp] theorem takeFault_responses (f : FaultName) (s : State) : (takeFault f s).responses = s.responses := rfl
@[simp] theorem takeFault_inbox (f : FaultName) (s : State) : (takeFault f s).inbox = s.inbox := rfl
@[simp] theorem takeFault_draws (f : FaultName) (s : State) : (takeFault f s).draws = s.draws := rfl
/-! startExchange -/
@[simp] theorem startExchange_cfg (x : Data) (s : State) : (startExchange x s).cfg = s.cfg := rfl
@[simp] theorem startExchange_mode (x : Data) (s : State) : (startExchange x s).mode = s.mode := rfl
@[simp] theorem startExchange_hold (x : Data) (s : State) : (startExchange x s).hold = s.hold := rfl
@[simp] theorem startExchange_fault (x : Data) (s : State) : (startExchange x s).fault = s.fault := rfl
@[simp] theorem startExchange_busy (x : Data) (s : State) : (startExchange x s).busy = true := rfl
@[simp] theorem startExchange_xi (x : Data) (s : State) : (startExchange x s).xi = width s.cfg - 1 := rfl
@[simp] theorem startExchange_xacc (x : Data) (s : State) : (startExchange x s).xacc = 0#32 := rfl
@[simp] theorem startExchange_xdout (x : Data) (s : State) : (startExchange x s).xdout = x := rfl
@[simp] theorem startExchange_xstep (x : Data) (s : State) : (startExchange x s).xstep = 0 := rfl
@[simp] theorem startExchange_xsmp (x : Data) (s : State) : (startExchange x s).xsmp = s.xsmp := rfl
@[simp] theorem startExchange_sckLvl (x : Data) (s : State) : (startExchange x s).sckLvl = s.sckLvl := rfl
@[simp] theorem startExchange_mosiLvl (x : Data) (s : State) : (startExchange x s).mosiLvl = s.mosiLvl := rfl
@[simp] theorem startExchange_trace (x : Data) (s : State) : (startExchange x s).trace = s.trace := rfl
@[simp] theorem startExchange_responses (x : Data) (s : State) : (startExchange x s).responses = s.responses := rfl
@[simp] theorem startExchange_inbox (x : Data) (s : State) : (startExchange x s).inbox = s.inbox := rfl
@[simp] theorem startExchange_draws (x : Data) (s : State) : (startExchange x s).draws = s.draws := rfl
/-! discardResponses -/
@[simp] theorem discardResponses_cfg (s : State) : (discardResponses s).cfg = s.cfg := rfl
@[simp] theorem discardResponses_mode (s : State) : (discardResponses s).mode = s.mode := rfl
@[simp] theorem discardResponses_hold (s : State) : (discardResponses s).hold = s.hold := rfl
@[simp] theorem discardResponses_fault (s : State) : (discardResponses s).fault = s.fault := rfl
@[simp] theorem discardResponses_busy (s : State) : (discardResponses s).busy = s.busy := rfl
@[simp] theorem discardResponses_xi (s : State) : (discardResponses s).xi = s.xi := rfl
@[simp] theorem discardResponses_xacc (s : State) : (discardResponses s).xacc = s.xacc := rfl
@[simp] theorem discardResponses_xdout (s : State) : (discardResponses s).xdout = s.xdout := rfl
@[simp] theorem discardResponses_xstep (s : State) : (discardResponses s).xstep = s.xstep := rfl
@[simp] theorem discardResponses_xsmp (s : State) : (discardResponses s).xsmp = s.xsmp := rfl
@[simp] theorem discardResponses_sckLvl (s : State) : (discardResponses s).sckLvl = s.sckLvl := rfl
@[simp] theorem discardResponses_mosiLvl (s : State) : (discardResponses s).mosiLvl = s.mosiLvl := rfl
@[simp] theorem discardResponses_trace (s : State) : (discardResponses s).trace = s.trace := rfl
@[simp] theorem discardResponses_responses (s : State) : (discardResponses s).responses = [] := rfl
@[simp] theorem discardResponses_inbox (s : State) : (discardResponses s).inbox = s.inbox := rfl
@[simp] theorem discardResponses_draws (s : State) : (discardResponses s).draws = s.draws := rfl
/-! presentWord -/
@[simp] theorem presentWord_cfg (w : CmdWord) (s : State) : (presentWord w s).cfg = s.cfg := rfl
@[simp] theorem presentWord_mode (w : CmdWord) (s : State) : (presentWord w s).mode = s.mode := rfl
@[simp] theorem presentWord_hold (w : CmdWord) (s : State) : (presentWord w s).hold = s.hold := rfl
@[simp] theorem presentWord_fault (w : CmdWord) (s : State) : (presentWord w s).fault = s.fault := rfl
@[simp] theorem presentWord_busy (w : CmdWord) (s : State) : (presentWord w s).busy = s.busy := rfl
@[simp] theorem presentWord_xi (w : CmdWord) (s : State) : (presentWord w s).xi = s.xi := rfl
@[simp] theorem presentWord_xacc (w : CmdWord) (s : State) : (presentWord w s).xacc = s.xacc := rfl
@[simp] theorem presentWord_xdout (w : CmdWord) (s : State) : (presentWord w s).xdout = s.xdout := rfl
@[simp] theorem presentWord_xstep (w : CmdWord) (s : State) : (presentWord w s).xstep = s.xstep := rfl
@[simp] theorem presentWord_xsmp (w : CmdWord) (s : State) : (presentWord w s).xsmp = s.xsmp := rfl
@[simp] theorem presentWord_sckLvl (w : CmdWord) (s : State) : (presentWord w s).sckLvl = s.sckLvl := rfl
@[simp] theorem presentWord_mosiLvl (w : CmdWord) (s : State) : (presentWord w s).mosiLvl = s.mosiLvl := rfl
@[simp] theorem presentWord_trace (w : CmdWord) (s : State) : (presentWord w s).trace = s.trace := rfl
@[simp] theorem presentWord_responses (w : CmdWord) (s : State) : (presentWord w s).responses = s.responses := rfl
@[simp] theorem presentWord_inbox (w : CmdWord) (s : State) : (presentWord w s).inbox = .present w :: s.inbox := rfl
@[simp] theorem presentWord_draws (w : CmdWord) (s : State) : (presentWord w s).draws = s.draws := rfl

end Sys2Proof.Machine
end

