-- ==== Sys2Proof/Laws/Ops.lean ====
section
/-! SUPPORT. What each shared operation can do, said once: the checks of a command, the calls of a waveform, the end of a
bit, the micro-step, the fault codes. -/

namespace Sys2Proof.Machine

/-! The checks that every command begins with (R184, R191). -/

theorem acceptCommand_ready {s : State} (hf : s.fault = 0#3) (hb : s.busy = false) (body : State → State) :
    acceptCommand s body = .next (body s) := by
  simp [acceptCommand, hf, hb]

theorem acceptCommand_busy {s : State} (hf : s.fault = 0#3) (hb : s.busy = true) (body : State → State) :
    acceptCommand s body = .next (takeFault .reentrant s) := by
  simp [acceptCommand, hf, hb]

theorem acceptCommand_faulted {s : State} (hf : s.fault ≠ 0#3) (body : State → State) :
    acceptCommand s body = .fault (.stopped s.fault) := by
  simp [acceptCommand, hf]

theorem acceptCommand_next_cases {s t : State} {body : State → State} (h : acceptCommand s body = .next t) :
    s.fault = 0#3 ∧ (s.busy = true ∧ t = takeFault .reentrant s ∨ s.busy = false ∧ t = body s) := by
  by_cases hf : s.fault = 0#3
  · cases hb : s.busy
    · rw [acceptCommand_ready hf hb] at h
      cases h
      exact ⟨hf, .inr ⟨rfl, rfl⟩⟩
    · rw [acceptCommand_busy hf hb] at h
      cases h
      exact ⟨hf, .inl ⟨rfl, rfl⟩⟩
  · rw [acceptCommand_faulted hf] at h
    cases h

/-! The six commands have one shape: the checks, then their own part. -/

/-- A command's own part; a micro-operation has none. -/
def commandBody : Instr → State → State
  | .select dev a => selectBody dev a
  | .setfreq hz => setfreqBody hz
  | .setmode m => setmodeBody m
  | .xchg x => startExchange x
  | .status dev => statusBody dev
  | .cmddata dev c => cmddataBody dev c
  | .bitx0 _ => id
  | .bitx1 _ => id
  | .bitx2 _ => id
  | .bitx3 _ => id

/-- A micro-operation's calls (R121 to R124); a command has none. -/
def microCalls : Instr → List Call
  | .select _ _ => []
  | .setfreq _ => []
  | .setmode _ => []
  | .xchg _ => []
  | .status _ => []
  | .cmddata _ _ => []
  | .bitx0 d => bitx0Calls d
  | .bitx1 d => bitx1Calls d
  | .bitx2 d => bitx2Calls d
  | .bitx3 d => bitx3Calls d

theorem exec_command {i : Instr} (hi : i.isCommand = true) (s : State) :
    exec i s = acceptCommand s (commandBody i) := by
  cases i <;> first | rfl | cases hi

theorem exec_micro {i : Instr} (hi : i.isCommand = false) (s : State) :
    exec i s = microStep (microCalls i) s := by
  cases i <;> first | rfl | cases hi

theorem selectMicroOp_isCommand (m : Mode) (d : Level) : (selectMicroOp m d).isCommand = false := by
  revert m d
  decide

/-- What a command's own part does to `FAULT`: it leaves it, or it takes one of the command's own faults and writes
nothing else (R182, R183). -/
theorem commandBody_fault_cases (i : Instr) (s : State) :
    (commandBody i s).fault = s.fault ∨
      ∃ f, f ≠ FaultName.illegal ∧ f ≠ .reentrant ∧ commandBody i s = takeFault f s := by
  cases i with
  | setfreq hz =>
    by_cases h : hz = 0#32
    · exact .inr ⟨.freqZero, by simp, by simp, by simp [commandBody, setfreqBody, h]⟩
    · exact .inl (by simp [commandBody, setfreqBody, h])
  | setmode m =>
    by_cases h : 3 < m.toNat
    · exact .inr ⟨.modeRange, by simp, by simp, by simp [commandBody, setmodeBody, h]⟩
    · by_cases he : modeEnabled s.cfg (m.setWidth 2) = false
      · exact .inr ⟨.modeDisabled, by simp, by simp, by simp [commandBody, setmodeBody, h, he]⟩
      · exact .inl (by simp [commandBody, setmodeBody, h, he])
  | cmddata dev c =>
    by_cases h : s.cfg.cmddataSupported = false
    · exact .inr ⟨.unsupported, by simp, by simp, by simp [commandBody, cmddataBody, h]⟩
    · exact .inl (by simp [commandBody, cmddataBody, h])
  | select _ _ | xchg _ | status _ | bitx0 _ | bitx1 _ | bitx2 _ | bitx3 _ => exact .inl rfl

/-! One call of a waveform writes the trace, the driven levels, the sampled bit and the counter of draws only (R120). -/

@[simp] theorem performCall_cfg (c : Call) (s : State) : (performCall c s).cfg = s.cfg := by cases c <;> rfl
@[simp] theorem performCall_mode (c : Call) (s : State) : (performCall c s).mode = s.mode := by cases c <;> rfl
@[simp] theorem performCall_hold (c : Call) (s : State) : (performCall c s).hold = s.hold := by cases c <;> rfl
@[simp] theorem performCall_fault (c : Call) (s : State) : (performCall c s).fault = s.fault := by cases c <;> rfl
@[simp] theorem performCall_busy (c : Call) (s : State) : (performCall c s).busy = s.busy := by cases c <;> rfl
@[simp] theorem performCall_xi (c : Call) (s : State) : (performCall c s).xi = s.xi := by cases c <;> rfl
@[simp] theorem performCall_xacc (c : Call) (s : State) : (performCall c s).xacc = s.xacc := by cases c <;> rfl
@[simp] theorem performCall_xdout (c : Call) (s : State) : (performCall c s).xdout = s.xdout := by cases c <;> rfl
@[simp] theorem performCall_xstep (c : Call) (s : State) : (performCall c s).xstep = s.xstep := by cases c <;> rfl
@[simp] theorem performCall_responses (c : Call) (s : State) : (performCall c s).responses = s.responses := by
  cases c <;> rfl
@[simp] theorem performCall_inbox (c : Call) (s : State) : (performCall c s).inbox = s.inbox := by cases c <;> rfl

/-- The event that a call appends (R11, R41). -/
def callEvent (c : Call) (s : State) : Event :=
  match c with
  | .setClk v => .sck v
  | .setMosi v => .mosi v
  | .sample => .sample (sampleNow s)
  | .hold => .delay s.hold.toNat

@[simp] theorem performCall_trace (c : Call) (s : State) :
    (performCall c s).trace = s.trace ++ [callEvent c s] := by cases c <;> rfl

/-! The end of a bit (R145) touches no line and no configuration. -/

@[simp] theorem finishBit_cfg (s : State) : (finishBit s).cfg = s.cfg := by unfold finishBit; split <;> rfl
@[simp] theorem finishBit_mode (s : State) : (finishBit s).mode = s.mode := by unfold finishBit; split <;> rfl
@[simp] theorem finishBit_hold (s : State) : (finishBit s).hold = s.hold := by unfold finishBit; split <;> rfl
@[simp] theorem finishBit_fault (s : State) : (finishBit s).fault = s.fault := by unfold finishBit; split <;> rfl
@[simp] theorem finishBit_xdout (s : State) : (finishBit s).xdout = s.xdout := by unfold finishBit; split <;> rfl
@[simp] theorem finishBit_sckLvl (s : State) : (finishBit s).sckLvl = s.sckLvl := by unfold finishBit; split <;> rfl
@[simp] theorem finishBit_mosiLvl (s : State) : (finishBit s).mosiLvl = s.mosiLvl := by
  unfold finishBit; split <;> rfl
@[simp] theorem finishBit_trace (s : State) : (finishBit s).trace = s.trace := by unfold finishBit; split <;> rfl
@[simp] theorem finishBit_inbox (s : State) : (finishBit s).inbox = s.inbox := by unfold finishBit; split <;> rfl
@[simp] theorem finishBit_draws (s : State) : (finishBit s).draws = s.draws := by unfold finishBit; split <;> rfl

/-- The last bit of a word ends the exchange with its response. -/
theorem finishBit_last {s : State} (h : s.xi = 0) :
    finishBit s = { s with
      xacc := shiftIn s.xacc s.xsmp, busy := false
      responses := s.responses ++ [.value (shiftIn s.xacc s.xsmp)] } := by
  simp [finishBit, h, respond]

/-- Every other bit is followed by the next lower one. -/
theorem finishBit_more {s : State} (h : s.xi ≠ 0) :
    finishBit s = { s with xacc := shiftIn s.xacc s.xsmp, xi := s.xi - 1, xstep := 0 } := by
  simp [finishBit, h]

/-! The waveforms (R121 to R126). -/

theorem liveCalls_zero (calls : List Call) : liveCalls 0#32 calls = calls.filter (· ≠ .hold) := by
  simp [liveCalls]

theorem liveCalls_of_ne {h : Data} (hh : h ≠ 0#32) (calls : List Call) : liveCalls h calls = calls := by
  simp [liveCalls, hh]

/-- Every waveform makes six calls, or four when `HOLD` = 0 (R128). -/
theorem liveCalls_waveform_length (h : Data) (m : Mode) (d : Level) :
    (liveCalls h (waveform m d)).length = if h = 0#32 then 4 else 6 := by
  by_cases hh : h = 0#32
  · rw [hh, liveCalls_zero, if_pos rfl]
    revert m d
    decide
  · rw [liveCalls_of_ne hh, if_neg hh]
    revert m d
    decide

/-- The micro-operation of a mode is the micro-step of that mode's waveform (R69, R102). -/
theorem exec_selectMicroOp (m : Mode) (d : Level) (s : State) :
    exec (selectMicroOp m d) s = microStep (waveform m d) s := by
  unfold selectMicroOp waveform
  split
  · rfl
  · split
    · rfl
    · split <;> rfl

/-- A micro-step with a call to make (R145). -/
theorem microStep_of_call {calls : List Call} {s : State} {c : Call} (hf : s.fault = 0#3) (hb : s.busy = true)
    (hc : (liveCalls s.hold calls)[s.xstep]? = some c) :
    microStep calls s = .next (advanceWith c (s.xstep + 1 == (liveCalls s.hold calls).length) s) := by
  simp [microStep, hf, hb, hc]

theorem microStep_next_cases {calls : List Call} {s t : State} (h : microStep calls s = .next t) :
    s.fault = 0#3 ∧ s.busy = true ∧ ∃ c, (liveCalls s.hold calls)[s.xstep]? = some c ∧
      t = advanceWith c (s.xstep + 1 == (liveCalls s.hold calls).length) s := by
  unfold microStep at h
  split at h
  · cases h
  · split at h
    · cases h
    · split at h
      · cases h
      · rename_i hf hb _ c hc
        cases h
        exact ⟨by simpa using hf, by simpa using hb, c, hc, rfl⟩

/-- What one micro-step makes of the state: the call, the count, and, after the last call, the end of the bit. -/
theorem advanceWith_cases (c : Call) (last : Bool) (s : State) :
    (last = true ∧ advanceWith c last s = finishBit { performCall c s with xstep := s.xstep + 1 }) ∨
    (last = false ∧ advanceWith c last s = { performCall c s with xstep := s.xstep + 1 }) := by
  cases last
  · exact .inr ⟨rfl, rfl⟩
  · exact .inl ⟨rfl, rfl⟩

@[simp] theorem advanceWith_cfg (c : Call) (l : Bool) (s : State) : (advanceWith c l s).cfg = s.cfg := by
  cases l <;> simp [advanceWith]
@[simp] theorem advanceWith_mode (c : Call) (l : Bool) (s : State) : (advanceWith c l s).mode = s.mode := by
  cases l <;> simp [advanceWith]
@[simp] theorem advanceWith_hold (c : Call) (l : Bool) (s : State) : (advanceWith c l s).hold = s.hold := by
  cases l <;> simp [advanceWith]
@[simp] theorem advanceWith_fault (c : Call) (l : Bool) (s : State) : (advanceWith c l s).fault = s.fault := by
  cases l <;> simp [advanceWith]
@[simp] theorem advanceWith_xdout (c : Call) (l : Bool) (s : State) : (advanceWith c l s).xdout = s.xdout := by
  cases l <;> simp [advanceWith]
@[simp] theorem advanceWith_inbox (c : Call) (l : Bool) (s : State) : (advanceWith c l s).inbox = s.inbox := by
  cases l <;> simp [advanceWith]
@[simp] theorem advanceWith_trace (c : Call) (l : Bool) (s : State) :
    (advanceWith c l s).trace = s.trace ++ [callEvent c s] := by
  cases l <;> simp [advanceWith]

/-- An instruction with a next state: a command on a busy block, a command on a ready block, or a micro-step. -/
theorem exec_next_cases {i : Instr} {s t : State} (h : exec i s = .next t) :
    s.fault = 0#3 ∧
      ((i.isCommand = true ∧ s.busy = true ∧ t = takeFault .reentrant s) ∨
       (i.isCommand = true ∧ s.busy = false ∧ t = commandBody i s) ∨
       (i.isCommand = false ∧ s.busy = true ∧ ∃ c, (liveCalls s.hold (microCalls i))[s.xstep]? = some c ∧
          t = advanceWith c (s.xstep + 1 == (liveCalls s.hold (microCalls i)).length) s)) := by
  cases hi : i.isCommand
  · rw [exec_micro hi] at h
    obtain ⟨hf, hb, hc⟩ := microStep_next_cases h
    exact ⟨hf, .inr (.inr ⟨rfl, hb, hc⟩)⟩
  · rw [exec_command hi] at h
    obtain ⟨hf, ⟨hb, ht⟩ | ⟨hb, ht⟩⟩ := acceptCommand_next_cases h
    · exact ⟨hf, .inl ⟨rfl, hb, ht⟩⟩
    · exact ⟨hf, .inr (.inl ⟨rfl, hb, ht⟩)⟩

/-- An instruction on a block that is not faulted never answers a fault outcome: it takes its fault (R183). -/
theorem exec_ne_fault {i : Instr} {s : State} (hf : s.fault = 0#3) (r : Fault) : exec i s ≠ .fault r := by
  cases hi : i.isCommand
  · rw [exec_micro hi, microStep, if_neg (by simpa using hf)]
    split
    · simp
    · split <;> simp
  · rw [exec_command hi, acceptCommand, if_neg (by simpa using hf)]
    split <;> simp

/-! The fault codes (R181). -/

theorem FaultName.code_ne_zero (f : FaultName) : f.code ≠ 0#3 := by cases f <;> decide

theorem faultOfCode_code (f : FaultName) : faultOfCode f.code = some f := by cases f <;> rfl

theorem faultOfCode_eq_some {c : BitVec 3} {f : FaultName} (h : faultOfCode c = some f) : c = f.code := by
  revert c
  cases f <;> decide

@[simp] theorem faultOfCode_zero : faultOfCode 0#3 = none := rfl

/-- The platform's flags keep their bound (R161). -/
theorem limitFlags_lt (w : Nat) (f : Data) : (limitFlags w f).toNat < 2 ^ w := by
  unfold limitFlags
  rw [BitVec.toNat_ofNat]
  exact Nat.lt_of_le_of_lt (Nat.mod_le _ _) (Nat.mod_lt _ (Nat.two_pow_pos w))

/-- Flags below the bound pass unchanged (R161). -/
theorem limitFlags_of_lt {w : Nat} {f : Data} (h : f.toNat < 2 ^ w) : limitFlags w f = f := by
  unfold limitFlags
  rw [Nat.mod_eq_of_lt h, BitVec.ofNat_toNat, BitVec.setWidth_eq]

end Sys2Proof.Machine
end

