-- ==== Sys2Proof/Laws/Construct.lean ====
section
/-! SUPPORT. What construction answers (spec 70 R200, R201; 00 R7), and what acceptance says of a configuration. -/

namespace Sys2Proof.Machine

/-- R7, condition by condition. -/
theorem accepted_iff (c : Config) : c.Accepted ↔
    c.overheadNs ≠ 0 ∧ c.overheadNs ≤ 1000000000 ∧ (c.variant = .variable → c.widthCfg ≠ 0 ∧ c.widthCfg ≤ 32) ∧
    c.statusWidth ≠ 0 ∧ c.statusWidth ≤ 32 ∧ c.resetMode ≤ 3 ∧ c.resetFreqHz ≠ 0#32 := by
  unfold Config.Accepted Config.problems
  rw [List.filter_eq_nil_iff]
  simp [Config.has]
  intro _ _
  constructor
  · rintro ⟨h3, h4, h5, h6, h7⟩
    exact ⟨fun hv => ⟨h3 hv, h4 hv⟩, h5.1, h5.2, h6, h7⟩
  · rintro ⟨h3, h4, h5, h6, h7⟩
    exact ⟨fun hv => (h3 hv).1, fun hv => (h3 hv).2, ⟨h4, h5⟩, h6, h7⟩

/-- The word width of an accepted configuration (R6). -/
theorem width_bounds {c : Config} (h : c.Accepted) : 1 ≤ width c ∧ width c ≤ 32 := by
  rw [accepted_iff] at h
  unfold width
  split
  · omega
  · have := h.2.2.1 ‹_›
    omega

/-- The mode that construction passes to SETMODE. -/
theorem resetMode_setWidth {n : Nat} (h : n ≤ 3) :
    ¬ 3 < (BitVec.ofNat 8 n).toNat ∧ (BitVec.ofNat 8 n).setWidth 2 = BitVec.ofNat 2 n := by
  have : n = 0 ∨ n = 1 ∨ n = 2 ∨ n = 3 := by omega
  rcases this with rfl | rfl | rfl | rfl <;> decide

theorem construct_refused {c : Config} (h : ¬ c.Accepted) : construct c = .refused (.configuration c.problems) := by
  unfold construct
  rw [if_pos h]

end Sys2Proof.Machine
end

