-- ==== Sys2Proof/Laws/Decode.lean ====
section
/-! SUPPORT. The command word as its four fields (spec 30 R62): packing, reading back, masking; and what each row of R65
says field by field. -/

namespace Sys2Proof

theorem packWord_getLsbD (imm : Data) (dev : DevId) (a op : BitVec 8) (i : Nat) :
    (packWord imm dev a op).getLsbD i =
      if i < 8 then op.getLsbD i else if i < 16 then a.getLsbD (i - 8)
      else if i < 32 then dev.getLsbD (i - 16) else imm.getLsbD (i - 32) := by
  simp only [packWord, BitVec.getLsbD_append]
  by_cases h1 : i < 8
  · simp [h1]
  · by_cases h2 : i < 16
    · simp [h1, h2, show i - 8 < 8 by omega]
    · by_cases h3 : i < 32
      · rw [if_neg h1, if_neg (show ¬ i - 8 < 8 by omega), if_pos (show i - 8 - 8 < 16 by omega),
          if_neg h1, if_neg h2, if_pos h3, show i - 8 - 8 = i - 16 by omega]
      · rw [if_neg h1, if_neg (show ¬ i - 8 < 8 by omega), if_neg (show ¬ i - 8 - 8 < 16 by omega),
          if_neg h1, if_neg h2, if_neg h3, show i - 8 - 8 - 16 = i - 32 by omega]

/-- A word is packed from its own fields. -/
theorem packWord_fields (w : CmdWord) :
    packWord (immField w) (devField w) (aField w) (opField w) = w := by
  apply BitVec.eq_of_getLsbD_eq
  intro i hi
  rw [packWord_getLsbD]
  simp only [immField, devField, aField, opField, BitVec.getLsbD_extractLsb']
  split
  · simp [*]
  · split
    · simp [show i - 8 < 8 by omega, show 8 + (i - 8) = i by omega]
    · split
      · simp [show i - 16 < 16 by omega, show 16 + (i - 16) = i by omega]
      · simp [show i - 32 < 32 by omega, show 32 + (i - 32) = i by omega]

@[simp] theorem opField_packWord (imm : Data) (dev : DevId) (a op : BitVec 8) :
    opField (packWord imm dev a op) = op := by
  apply BitVec.eq_of_getLsbD_eq
  intro i hi
  simp [opField, packWord_getLsbD, hi]

@[simp] theorem aField_packWord (imm : Data) (dev : DevId) (a op : BitVec 8) :
    aField (packWord imm dev a op) = a := by
  apply BitVec.eq_of_getLsbD_eq
  intro i hi
  simp [aField, packWord_getLsbD, hi, show 8 + i < 16 by omega]

@[simp] theorem devField_packWord (imm : Data) (dev : DevId) (a op : BitVec 8) :
    devField (packWord imm dev a op) = dev := by
  apply BitVec.eq_of_getLsbD_eq
  intro i hi
  simp [devField, packWord_getLsbD, hi, show ¬ 16 + i < 8 by omega, show 16 + i < 32 by omega]

@[simp] theorem immField_packWord (imm : Data) (dev : DevId) (a op : BitVec 8) :
    immField (packWord imm dev a op) = imm := by
  apply BitVec.eq_of_getLsbD_eq
  intro i hi
  simp [immField, packWord_getLsbD, hi, show ¬ 32 + i < 8 by omega, show ¬ 32 + i < 16 by omega]

@[simp] theorem flagBit_packWord (imm : Data) (dev : DevId) (a op : BitVec 8) :
    flagBit (packWord imm dev a op) = a.getLsbD 0 := by
  rw [flagBit, packWord_getLsbD]
  rfl

theorem packWord_and (imm imm' : Data) (dev dev' : DevId) (a a' op op' : BitVec 8) :
    packWord imm dev a op &&& packWord imm' dev' a' op' =
      packWord (imm &&& imm') (dev &&& dev') (a &&& a') (op &&& op') := by
  apply BitVec.eq_of_getLsbD_eq
  intro i hi
  rw [BitVec.getLsbD_and]
  simp only [packWord_getLsbD]
  split
  · simp
  · split
    · simp
    · split <;> simp

theorem packWord_inj (imm imm' : Data) (dev dev' : DevId) (a a' op op' : BitVec 8) :
    packWord imm dev a op = packWord imm' dev' a' op' ↔ imm = imm' ∧ dev = dev' ∧ a = a' ∧ op = op' := by
  constructor
  · intro h
    exact ⟨by simpa using congrArg immField h, by simpa using congrArg devField h,
      by simpa using congrArg aField h, by simpa using congrArg opField h⟩
  · rintro ⟨rfl, rfl, rfl, rfl⟩
    rfl

/-! One-bit operands in the `A` field (R65). -/

theorem flagField_getLsbD_zero (b : Bool) : (flagField b).getLsbD 0 = b := by
  cases b <;> decide

@[simp] theorem flagField_zero (b : Bool) : (flagField b)[0] = b := by
  cases b <;> decide

theorem flagField_reserved (b : Bool) : (flagField b).extractLsb' 1 7 = 0#7 := by
  cases b <;> decide

theorem eq_flagField_of_reserved (a : BitVec 8) (h : a.extractLsb' 1 7 = 0#7) :
    a = flagField (a.getLsbD 0) := by
  revert a
  decide

theorem and_0xFE_eq_zero (a : BitVec 8) : a &&& 0xFE#8 = 0#8 ↔ a.extractLsb' 1 7 = 0#7 := by
  revert a
  decide

theorem and_0xFF (a : BitVec 8) : a &&& 0xFF#8 = a := by
  revert a
  decide

theorem and_0xFFFF (x : DevId) : x &&& 0xFFFF#16 = x :=
  (by decide : BitVec.allOnes 16 = 0xFFFF#16) ▸ BitVec.and_allOnes

theorem and_0xFFFFFFFF (x : Data) : x &&& 0xFFFFFFFF#32 = x :=
  (by decide : BitVec.allOnes 32 = 0xFFFFFFFF#32) ▸ BitVec.and_allOnes

/-! The rows of R65 in terms of the fields: what is reserved is zero, and the opcode is the row's. -/

/-- `W & mask = value`, when both constants are given by their fields. -/
theorem matchesWord_packed (w mask value : CmdWord) (mi vi : Data) (md vd : DevId) (ma va mo vo : BitVec 8)
    (hm : mask = packWord mi md ma mo) (hv : value = packWord vi vd va vo) :
    (CmdRow.mk mask value).matchesWord w = true ↔
      immField w &&& mi = vi ∧ devField w &&& md = vd ∧ aField w &&& ma = va ∧ opField w &&& mo = vo := by
  rw [CmdRow.matchesWord, beq_iff_eq, hm, hv]
  conv => lhs; rw [← packWord_fields w]
  rw [packWord_and, packWord_inj]

theorem selectRow_matches (w : CmdWord) : selectRow.matchesWord w = true ↔
    immField w = 0#32 ∧ (aField w).extractLsb' 1 7 = 0#7 ∧ opField w = 0x01#8 := by
  rw [selectRow, matchesWord_packed w _ _ 0xFFFFFFFF#32 0#32 0#16 0#16 0xFE#8 0#8 0xFF#8 0x01#8
    (by decide) (by decide)]
  simp [and_0xFFFFFFFF, and_0xFE_eq_zero, and_0xFF]

theorem setfreqRow_matches (w : CmdWord) : setfreqRow.matchesWord w = true ↔
    devField w = 0#16 ∧ aField w = 0#8 ∧ opField w = 0x02#8 := by
  rw [setfreqRow, matchesWord_packed w _ _ 0#32 0#32 0xFFFF#16 0#16 0xFF#8 0#8 0xFF#8 0x02#8
    (by decide) (by decide)]
  simp [and_0xFFFF, and_0xFF]

theorem setmodeRow_matches (w : CmdWord) : setmodeRow.matchesWord w = true ↔
    immField w = 0#32 ∧ devField w = 0#16 ∧ opField w = 0x03#8 := by
  rw [setmodeRow, matchesWord_packed w _ _ 0xFFFFFFFF#32 0#32 0xFFFF#16 0#16 0#8 0#8 0xFF#8 0x03#8
    (by decide) (by decide)]
  simp [and_0xFFFFFFFF, and_0xFFFF, and_0xFF]

theorem xchgRow_matches (w : CmdWord) : xchgRow.matchesWord w = true ↔
    devField w = 0#16 ∧ aField w = 0#8 ∧ opField w = 0x04#8 := by
  rw [xchgRow, matchesWord_packed w _ _ 0#32 0#32 0xFFFF#16 0#16 0xFF#8 0#8 0xFF#8 0x04#8
    (by decide) (by decide)]
  simp [and_0xFFFF, and_0xFF]

theorem statusRow_matches (w : CmdWord) : statusRow.matchesWord w = true ↔
    immField w = 0#32 ∧ aField w = 0#8 ∧ opField w = 0x05#8 := by
  rw [statusRow, matchesWord_packed w _ _ 0xFFFFFFFF#32 0#32 0#16 0#16 0xFF#8 0#8 0xFF#8 0x05#8
    (by decide) (by decide)]
  simp [and_0xFFFFFFFF, and_0xFF]

theorem cmddataRow_matches (w : CmdWord) : cmddataRow.matchesWord w = true ↔
    immField w = 0#32 ∧ (aField w).extractLsb' 1 7 = 0#7 ∧ opField w = 0x06#8 := by
  rw [cmddataRow, matchesWord_packed w _ _ 0xFFFFFFFF#32 0#32 0#16 0#16 0xFE#8 0#8 0xFF#8 0x06#8
    (by decide) (by decide)]
  simp [and_0xFFFFFFFF, and_0xFE_eq_zero, and_0xFF]

/-- What the reserved-bit check answers. -/
theorem withReservedClear_ok_iff (r : CmdRow) (w : CmdWord) (i j : Instr) :
    withReservedClear r w i = .ok j ↔ r.matchesWord w = true ∧ i = j := by
  unfold withReservedClear
  split <;> simp_all

end Sys2Proof
end

