-- ==== Sys2Proof/Laws/Exchange.lean ====
section
/-! SUPPORT. What a whole waveform leaves alone, the accumulator's shift, and the readings of a trace (spec 42 R120, 43
R144, 10 R27). -/

namespace Sys2Proof.Machine

/-- A waveform's calls change the levels, the trace, the kept sample and the counter of draws, and nothing else. -/
theorem runCalls_frame (calls : List Call) (s : State) :
    (runCalls calls s).cfg = s.cfg ∧ (runCalls calls s).mode = s.mode ∧ (runCalls calls s).hold = s.hold ∧
    (runCalls calls s).fault = s.fault ∧ (runCalls calls s).busy = s.busy ∧ (runCalls calls s).xi = s.xi ∧
    (runCalls calls s).xacc = s.xacc ∧ (runCalls calls s).xdout = s.xdout ∧ (runCalls calls s).xstep = s.xstep ∧
    (runCalls calls s).responses = s.responses ∧ (runCalls calls s).inbox = s.inbox := by
  induction calls generalizing s with
  | nil => simp [runCalls]
  | cons c calls ih =>
    have h := ih (performCall c s)
    simpa [runCalls] using h

@[simp] theorem runCalls_nil (s : State) : runCalls [] s = s := rfl

@[simp] theorem runCalls_cons (c : Call) (calls : List Call) (s : State) :
    runCalls (c :: calls) s = runCalls calls (performCall c s) := rfl

/-- Shifting one bit in doubles the accumulator and adds the bit, while there is room for it. -/
theorem shiftIn_toNat (acc : Data) (b : Level) (h : acc.toNat < 2 ^ 31) :
    (shiftIn acc b).toNat = 2 * acc.toNat + b.toNat := by
  unfold shiftIn
  rw [BitVec.toNat_or, BitVec.toNat_shiftLeft, Nat.shiftLeft_eq, Nat.mod_eq_of_lt (by omega)]
  cases b
  · simp
    omega
  · rw [BitVec.toNat_setWidth, show (BitVec.ofBool true).toNat % 2 ^ 32 = 1 by decide,
      show acc.toNat * 2 ^ 1 = acc.toNat <<< 1 by simp [Nat.shiftLeft_eq],
      ← Nat.shiftLeft_add_eq_or_of_lt (b := 1) (i := 1) (by decide)]
    simp [Nat.shiftLeft_eq]
    omega

/-- The clock after one more call. -/
theorem clockAfter_snoc (v : Level) (calls : List Call) (c : Call) :
    clockAfter v (calls ++ [c]) = clockAfter (clockAfter v calls) [c] := by
  induction calls generalizing v with
  | nil => rfl
  | cons a calls ih => cases a <;> simp [clockAfter, ih]

theorem lastSck_snoc (es : List Event) (e : Event) : lastSck (es ++ [e]) = (lastSck [e]).or (lastSck es) := by
  induction es with
  | nil => cases e <;> simp [lastSck]
  | cons a es ih => cases a <;> simp [lastSck, ih]

theorem lastMosi_snoc (es : List Event) (e : Event) : lastMosi (es ++ [e]) = (lastMosi [e]).or (lastMosi es) := by
  induction es with
  | nil => cases e <;> simp [lastMosi]
  | cons a es ih => cases a <;> simp [lastMosi, ih]

theorem samplesOf_append (es fs : List Event) : samplesOf (es ++ fs) = samplesOf es ++ samplesOf fs := by
  induction es with
  | nil => rfl
  | cons e es ih => cases e <;> simp [samplesOf, ih]

/-- A run may be cut in two. -/
theorem runSteps_add {m : Nat} {s t : State} (n : Nat) (h : runSteps m s = .next t) :
    runSteps (m + n) s = runSteps n t := by
  induction m generalizing s with
  | zero =>
    simp only [runSteps] at h
    cases h
    simp
  | succ m ih =>
    rw [show m + 1 + n = (m + n) + 1 by omega]
    simp only [runSteps] at h ⊢
    cases hs : step s with
    | next u =>
      rw [hs] at h
      exact ih h
    | fault r =>
      rw [hs] at h
      cases h
    | refused r =>
      rw [hs] at h
      cases h

end Sys2Proof.Machine
end

