-- ==== Sys2Proof/Laws/PerInstr.lean ====
section
/-! SUPPORT. The family EncodedWordFitsItsRow: the word of a command matches a row of the table of R65. One lemma per
constructor of Instr. -/

namespace Sys2Proof.Laws.EncodedWordFitsItsRow

/-- The word of an instruction, where it has one, matches the mask and value of a row of R65. -/
def Statement (i : Instr) : Prop := ∀ w, encode i = some w → ∃ r ∈ commandRows, r.matchesWord w = true

theorem select (dev : DevId) (asserted : Bool) : Statement (.select dev asserted) := by
  intro w h
  cases h
  exact ⟨selectRow, by simp [commandRows], by simp [selectRow_matches, flagField_reserved]⟩

theorem setfreq (hz : Data) : Statement (.setfreq hz) := by
  intro w h
  cases h
  exact ⟨setfreqRow, by simp [commandRows], by simp [setfreqRow_matches]⟩

theorem setmode (m : BitVec 8) : Statement (.setmode m) := by
  intro w h
  cases h
  exact ⟨setmodeRow, by simp [commandRows], by simp [setmodeRow_matches]⟩

theorem xchg (x : Data) : Statement (.xchg x) := by
  intro w h
  cases h
  exact ⟨xchgRow, by simp [commandRows], by simp [xchgRow_matches]⟩

theorem status (dev : DevId) : Statement (.status dev) := by
  intro w h
  cases h
  exact ⟨statusRow, by simp [commandRows], by simp [statusRow_matches]⟩

theorem cmddata (dev : DevId) (isCommand : Bool) : Statement (.cmddata dev isCommand) := by
  intro w h
  cases h
  exact ⟨cmddataRow, by simp [commandRows], by simp [cmddataRow_matches, flagField_reserved]⟩

theorem bitx0 (d : Level) : Statement (.bitx0 d) := by
  intro w h
  cases h

theorem bitx1 (d : Level) : Statement (.bitx1 d) := by
  intro w h
  cases h

theorem bitx2 (d : Level) : Statement (.bitx2 d) := by
  intro w h
  cases h

theorem bitx3 (d : Level) : Statement (.bitx3 d) := by
  intro w h
  cases h

end Sys2Proof.Laws.EncodedWordFitsItsRow
end

