-- ==== Sys2Proof/Laws/Step.lean ====
section
/-! SUPPORT. What a step can do, said once. -/

namespace Sys2Proof.Machine

/-- What the port and the loop position ask of the next step. -/
theorem nextAction_stopped {s : State} (h : s.fault ≠ 0#3) : nextAction s = .stopped s.fault := by
  simp [nextAction, h]

/-- The state an action starts from differs from the block's only in the host's moves. -/
theorem nextAction_start {s : State} :
    (∀ t, nextAction s = .wait t → s.fault = 0#3 ∧ s.busy = false ∧ t = { s with inbox := t.inbox }) ∧
    (∀ w t, nextAction s = .illegal w t → s.fault = 0#3 ∧ t = { s with inbox := t.inbox } ∧
      (s.inbox = .present w :: t.inbox ∨ s.inbox = .issue w :: t.inbox) ∧ ∃ e, decode w = .error e) ∧
    (∀ i t, nextAction s = .run i t → s.fault = 0#3 ∧ t = { s with inbox := t.inbox } ∧
      ((s.busy = true ∧ i = selectMicroOp s.mode (currentBit s)) ∨
        ∃ w, (s.inbox = .present w :: t.inbox ∨ s.inbox = .issue w :: t.inbox) ∧ decode w = .ok i)) := by
  by_cases hf : s.fault = 0#3
  · unfold nextAction
    rw [if_neg (by simpa using hf)]
    rcases hin : s.inbox with _ | ⟨mv, rest⟩
    · cases hb : s.busy <;> cases s <;> simp_all [noCommand]
    · cases mv with
      | pause => cases hb : s.busy <;> simp_all [noCommand, currentBit]
      | present w => rcases hd : decode w with e | i <;> simp_all [takeWord]
      | issue w =>
        cases hb : s.busy
        · rcases hd : decode w with e | i <;> simp_all [takeWord]
        · cases s
          simp_all [noCommand]
  · rw [nextAction_stopped hf]
    simp

/-- A step with a next state either waits, or runs an instruction that takes no fault. -/
theorem step_next_cases {s t : State} (h : step s = .next t) :
    nextAction s = .wait t ∨ ∃ i u, nextAction s = .run i u ∧ exec i u = .next t ∧ faultOfCode t.fault = none := by
  unfold step at h
  split at h
  · cases h
  · rename_i heq
    cases h
    exact .inl heq
  · simp [reportFault, faultOfCode_code] at h
  · rename_i i u heq
    refine .inr ⟨i, u, heq, ?_⟩
    cases hx : exec i u with
    | next v =>
      rw [hx] at h
      simp only [reportFault] at h
      split at h
      · cases h
      · cases h
        exact ⟨rfl, ‹_›⟩
    | fault r => rw [hx] at h; cases h
    | refused r => rw [hx] at h; cases h

end Sys2Proof.Machine
end

