-- ==== Sys2Proof/Laws/Timing.lean ====
section
/-! SUPPORT. What the calculator's functions can answer (spec 40 R81 to R84): their ranges, said once. -/

namespace Sys2Proof.Machine

/-- A frequency of at least 1 Hz has a period of at most one second. -/
theorem period_le {hz : Nat} (h : 1 ≤ hz) : period hz ≤ 1000000000 := by
  unfold period
  apply Nat.div_le_of_le_mul
  nlinarith [Nat.div_mul_le_self hz 2, Nat.mul_le_mul_left 999999999 h]

/-- The rounded quotient as one floor division: half the divisor is added at double scale. -/
theorem period_eq_div (hz : Nat) : period hz = (2000000000 + hz) / (2 * hz) := by
  unfold period
  rw [← Nat.div_div_eq_div_mul]
  congr 1
  omega

theorem remainingNs_le (overhead hz : Nat) : remainingNs overhead hz ≤ period hz := by
  unfold remainingNs
  split <;> omega

theorem roundHold_mono {p q : Nat} (h : p ≤ q) : roundHold p ≤ roundHold q := by
  unfold roundHold
  omega

theorem achieved_anti {overhead h k : Nat} (ho : 1 ≤ overhead) (hk : h ≤ k) :
    achieved overhead k ≤ achieved overhead h := by
  unfold achieved
  exact Nat.div_le_div_left (by omega) (by omega)

end Sys2Proof.Machine
end

