-- ==== Sys2Proof/Tests/Slice0.lean ====
section
/-! SUPPORT. The model's own tests. The words, traces and values expected here are written out from spec 95 and from the
rules named beside them. Theorems named `test_witness_…` show concrete states and operands that meet the hypotheses of a
statement of the certificate. -/

namespace Sys2Proof.Tests

open Sys2Proof Sys2Proof.Machine

/-! Small states. -/

/-- R5's vector configuration with the loopback handle, STATUS answering 0x01 (spec 95, P3). -/
def loopCfg : Config := { Config.vectors with cap := ⟨.loopback, .constant 0x01#32⟩ }

/-- The construction state of spec 95 under a configuration. -/
def start (c : Config) : State := { State.reset with cfg := c }

/-- A word presented at once. -/
def offering (w : CmdWord) (s : State) : State := { s with inbox := [.present w] }

/-- An exchange of 0xA5 at its first bit. -/
def midway (c : Config) (m : Mode) (h : Data) (k : Nat) : State :=
  { start c with
    mode := m, hold := h, busy := true, xi := 7, xdout := 0xA5#32, xstep := k
    sckLvl := some (idle m), trace := [.sck (idle m)] }

/-- The next state, if there is one. -/
def nextOf (o : Host.Outcome State Fault Refusal) : Option State :=
  match o with
  | .next t => some t
  | .fault _ => none
  | .refused _ => none

/-- The fault, if there is one. -/
def faultOf (o : Host.Outcome State Fault Refusal) : Option Fault :=
  match o with
  | .next _ => none
  | .fault r => some r
  | .refused _ => none

/-- The refusal, if there is one. -/
def refusalOf (o : Host.Outcome State Fault Refusal) : Option Refusal :=
  match o with
  | .next _ => none
  | .fault _ => none
  | .refused r => some r

/-! Well-formedness: each check refuses an ill-formed term (00 R7, spec 95 section 2.7; 30 R69). -/

theorem test_wf_overhead_zero :
    refusalOf (construct { loopCfg with overheadNs := 0 }) = some (.configuration [.overheadZero]) := by decide
theorem test_wf_overhead_too_large :
    refusalOf (construct { loopCfg with overheadNs := 1000000001 }) = some (.configuration [.overheadTooLarge]) := by decide
theorem test_wf_width_zero :
    refusalOf (construct { loopCfg with widthCfg := 0 }) = some (.configuration [.widthZero]) := by decide
theorem test_wf_width_too_large :
    refusalOf (construct { loopCfg with widthCfg := 33 }) = some (.configuration [.widthTooLarge]) := by decide
theorem test_wf_status_width :
    refusalOf (construct { loopCfg with statusWidth := 0 }) = some (.configuration [.statusWidthRange]) ∧
    refusalOf (construct { loopCfg with statusWidth := 33 }) = some (.configuration [.statusWidthRange]) := by decide
theorem test_wf_reset_mode :
    refusalOf (construct { loopCfg with resetMode := 4 }) = some (.configuration [.resetModeRange]) := by decide
theorem test_wf_reset_freq :
    refusalOf (construct { loopCfg with resetFreqHz := 0#32 }) = some (.configuration [.resetFreqZero]) := by decide
theorem test_wf_bounds_accepted :
    { loopCfg with overheadNs := 1000000000, widthCfg := 32, statusWidth := 32, resetMode := 3 }.Accepted := by decide
theorem test_wf_width_free_under_fixed8 : { loopCfg with variant := .fixed8, widthCfg := 0 }.Accepted := by decide
theorem test_wf_micro_operations_are_no_commands :
    (Instr.bitx0 true).isCommand = false ∧ (Instr.bitx1 true).isCommand = false ∧
    (Instr.bitx2 true).isCommand = false ∧ (Instr.bitx3 true).isCommand = false := by decide

/-! Decoding (spec 95 section 2.6). -/

theorem test_decode_select : decode 0x0000000000010101#64 = .ok (.select 1#16 true) := by decide
theorem test_decode_select_deassert : decode 0x00000000FFFF0001#64 = .ok (.select 65535#16 false) := by decide
theorem test_decode_select_reserved :
    decode 0x0000000000010301#64 = .error .reservedBits ∧
    decode 0x8000000000010001#64 = .error .reservedBits := by decide
theorem test_decode_setfreq : decode 0x00061A8000000002#64 = .ok (.setfreq 400000#32) := by decide
theorem test_decode_setfreq_reserved :
    decode 0x00061A8000010002#64 = .error .reservedBits ∧
    decode 0x00061A8000000102#64 = .error .reservedBits := by decide
theorem test_decode_setmode : decode 0x000000000000FF03#64 = .ok (.setmode 255#8) := by decide
theorem test_decode_setmode_reserved :
    decode 0x0000000000FF0003#64 = .error .reservedBits ∧
    decode 0x0000000100000003#64 = .error .reservedBits := by decide
theorem test_decode_xchg : decode 0x000000A500000004#64 = .ok (.xchg 0xA5#32) := by decide
theorem test_decode_xchg_reserved : decode 0x000000A500000104#64 = .error .reservedBits := by decide
theorem test_decode_status : decode 0x0000000012340005#64 = .ok (.status 0x1234#16) := by decide
theorem test_decode_status_reserved : decode 0x0000000012340105#64 = .error .reservedBits := by decide
theorem test_decode_cmddata : decode 0x0000000000070106#64 = .ok (.cmddata 7#16 true) := by decide
theorem test_decode_cmddata_reserved : decode 0x0000000000070206#64 = .error .reservedBits := by decide
theorem test_decode_reserved_opcodes :
    decode 0x0000000000000000#64 = .error (.reservedOpcode 0#8) ∧
    decode 0x0000000000000007#64 = .error (.reservedOpcode 7#8) ∧
    decode 0x00000000000000FF#64 = .error (.reservedOpcode 0xFF#8) := by decide

/-- 20 R43: byte 0 holds bits 7:0. -/
theorem test_decode_bytes :
    decodeBytes [0x02#8, 0x00#8, 0x00#8, 0x00#8, 0x80#8, 0x1A#8, 0x06#8, 0x00#8] = .ok (.setfreq 400000#32) := by decide
theorem test_decode_seven_bytes :
    decodeBytes [0x02#8, 0x00#8, 0x00#8, 0x00#8, 0x80#8, 0x1A#8, 0x06#8] = .error (.notOneWord 7) := by decide

/-- The rows of spec/opcode_table.json: 64 bits a command, the MODE register for an internal row. -/
theorem test_decodeTableWord_commands :
    decodeTableWord 64 0x10101 = some (.select 1#16 true) ∧ decodeTableWord 64 0x61A8000000002 = some (.setfreq 400000#32) ∧
    decodeTableWord 64 0x303 = some (.setmode 3#8) ∧ decodeTableWord 64 0xA500000004 = some (.xchg 0xA5#32) ∧
    decodeTableWord 64 0x12340005 = some (.status 0x1234#16) ∧ decodeTableWord 64 0x70106 = some (.cmddata 7#16 true) ∧
    decodeTableWord 64 0x10201 = none := by decide
theorem test_decodeTableWord_micro_operations :
    decodeTableWord 8 0 = some (.bitx0 false) ∧ decodeTableWord 8 1 = some (.bitx1 false) ∧
    decodeTableWord 8 2 = some (.bitx2 false) ∧ decodeTableWord 8 3 = some (.bitx3 false) ∧
    decodeTableWord 8 4 = none := by decide

/-- 30 R70's examples of encodings. -/
theorem test_encode_examples :
    encode (.setfreq 400000#32) = some 0x00061A8000000002#64 ∧ encode (.select 1#16 true) = some 0x0000000000010101#64 ∧
    encode (.setmode 3#8) = some 0x0000000000000303#64 := by decide

/-! `withFetchWord`: the very next step runs the row's instruction. -/

theorem test_withFetchWord_runs_setmode :
    (nextOf (step (State.reset.withFetchWord 64 0x303))).map (fun t => (t.mode, t.inbox)) = some (3#2, []) := by decide
theorem test_withFetchWord_runs_bitx3 :
    (nextOf (step (State.reset.withFetchWord 8 3))).map (fun t => (t.trace, t.xstep, t.inbox)) =
      some ([.sck false, .sck false], 1, []) := by decide
theorem test_withFetchWord_runs_bitx0 :
    (nextOf (step (State.reset.withFetchWord 8 0))).map (fun t => (t.trace, t.xstep)) =
      some ([.sck false, .mosi false], 1) := by decide

/-! The commands, one step each (spec 95 sections 2.1, 2.2, 2.4, 2.5, 2.7). -/

/-- S1. -/
theorem test_setfreq_S1 :
    (nextOf (exec (.setfreq 400000#32) (start loopCfg))).map (fun t => (t.hold, t.responses, t.trace)) =
      some (1#32, [.value 476190#32], [.sck false]) := by decide
/-- Section 2.1, `hz` = 1. -/
theorem test_setfreq_slowest :
    (nextOf (exec (.setfreq 1#32) (start loopCfg))).map (fun t => (t.hold, t.responses)) =
      some (500000#32, [.value 0#32]) := by decide
theorem test_setmode_drives_idle :
    (nextOf (exec (.setmode 3#8) (start loopCfg))).map (fun t => (t.mode, t.sckLvl, t.trace, t.responses)) =
      some (3#2, some true, [.sck false, .sck true], [.noValue]) := by decide
/-- R100 corner (a). -/
theorem test_setmode_same_mode_drives :
    (nextOf (exec (.setmode 0#8) (start loopCfg))).map (fun t => (t.mode, t.trace)) =
      some (0#2, [.sck false, .sck false]) := by decide
theorem test_xchg_start_step :
    (nextOf (exec (.xchg 0xA5#32) (start loopCfg))).map (fun t => (t.busy, t.xi, t.xdout, t.trace)) =
      some (true, 7, 0xA5#32, [.sck false]) := by decide
/-- S5: width 4, loopback, `XCHG 0xAB` returns 0xB (the whole-command form of R140). -/
theorem test_xchg_S5 :
    (wholeExchange 0xAB#32 (start { loopCfg with widthCfg := 4 })).responses = [.value 0xB#32] := by decide
theorem test_select_forwards :
    (nextOf (exec (.select 65535#16 false) (start loopCfg))).map (fun t => (t.trace, t.responses)) =
      some ([.sck false, .cs 65535#16 false], [.noValue]) := by decide
theorem test_status_returns_flags :
    (nextOf (exec (.status 7#16) (start loopCfg))).map (fun t => (t.trace, t.responses)) =
      some ([.sck false, .stat 7#16 0x01#32], [.value 0x01#32]) := by decide
theorem test_cmddata_forwards :
    (nextOf (exec (.cmddata 7#16 true) (start { loopCfg with cmddataSupported := true }))).map
      (fun t => (t.trace, t.responses)) = some ([.sck false, .cmd 7#16 true], [.noValue]) := by decide

/-! The waveforms, their first call and the call that samples (R121 to R124). -/

theorem test_bitx0_first_call :
    (nextOf (exec (.bitx0 true) (midway loopCfg 0#2 1#32 0))).map (fun t => (t.trace, t.mosiLvl, t.xstep)) =
      some ([.sck false, .mosi true], some true, 1) := by decide
theorem test_bitx0_third_call :
    (nextOf (exec (.bitx0 true) { midway loopCfg 0#2 1#32 2 with mosiLvl := some true })).map
      (fun t => (t.trace, t.xsmp)) = some ([.sck false, .sample true], true) := by decide
theorem test_bitx1_first_call :
    (nextOf (exec (.bitx1 true) (midway loopCfg 1#2 1#32 0))).map (fun t => (t.trace, t.sckLvl)) =
      some ([.sck false, .sck true], some true) := by decide
/-- R126: at a hold time of 0 the call after the data is the second edge. -/
theorem test_bitx1_zero_hold :
    (nextOf (exec (.bitx1 true) (midway loopCfg 1#2 0#32 2))).map (fun t => t.trace) =
      some [.sck false, .sck false] := by decide
theorem test_bitx2_second_call :
    (nextOf (exec (.bitx2 false) (midway loopCfg 2#2 1#32 1))).map (fun t => (t.trace, t.sckLvl)) =
      some ([.sck true, .sck false], some false) := by decide
/-- R145: the last call of a bit that is not the last one. -/
theorem test_bitx2_ends_the_bit :
    (nextOf (exec (.bitx2 true) { midway loopCfg 2#2 2#32 5 with xsmp := true, xacc := 1#32 })).map
      (fun t => (t.trace, t.xacc, t.xi, t.xstep)) = some ([.sck true, .delay 2], 3#32, 6, 0) := by decide
theorem test_bitx3_second_call :
    (nextOf (exec (.bitx3 true) (midway loopCfg 3#2 1#32 1))).map (fun t => (t.trace, t.mosiLvl)) =
      some ([.sck true, .mosi true], some true) := by decide
/-- R145: the last call of the last bit answers and ends the exchange. -/
theorem test_bitx3_ends_the_word :
    (nextOf (exec (.bitx3 true) { midway loopCfg 3#2 0#32 3 with xi := 0, xacc := 0x52#32, mosiLvl := some true })).map
      (fun t => (t.trace, t.busy, t.responses)) =
      some ([.sck true, .sample true], false, [.value 0xA5#32]) := by decide

/-! Faults (spec 95 sections 2.4, 2.6, 2.7). -/

theorem test_fault_illegal_word :
    faultOf (step (offering 0x0000000100000703#64 (start loopCfg))) =
      some (.raised .illegal (.word 0x0000000100000703#64) { start loopCfg with fault := 1#3 }) := by decide
theorem test_fault_freq_zero :
    faultOf (step (offering 0x0000000000000002#64 (start loopCfg))) =
      some (.raised .freqZero (.command (.setfreq 0#32)) { start loopCfg with fault := 2#3 }) := by decide
theorem test_fault_mode_range :
    faultOf (step (offering 0x0000000000000503#64 (start loopCfg))) =
      some (.raised .modeRange (.command (.setmode 5#8)) { start loopCfg with fault := 3#3 }) := by decide
theorem test_fault_mode_disabled :
    (nextOf (exec (.setmode 1#8) (start { loopCfg with modesEnabled := ⟨true, false, true, false⟩ }))).map
      (fun t => (t.fault, t.mode, t.trace)) = some (4#3, 0#2, [.sck false]) := by decide
theorem test_fault_unsupported :
    faultOf (step (offering 0x0000000000070106#64 (start loopCfg))) =
      some (.raised .unsupported (.command (.cmddata 7#16 true)) { start loopCfg with fault := 5#3 }) := by decide
/-- Section 2.4, reentrancy: SETMODE 0 after three micro-steps; and section 2.7: SETMODE 7 raises the same fault. -/
theorem test_fault_reentrant :
    (nextOf (exec (.setmode 7#8) (midway loopCfg 0#2 1#32 3))).map (fun t => (t.fault, t.busy, t.responses)) =
      some (6#3, true, []) := by decide
/-- Section 2.7: an illegal word during an exchange. -/
theorem test_fault_illegal_before_reentrant :
    faultOf (step (offering 0x00000000000000FF#64 (midway loopCfg 0#2 1#32 3))) =
      some (.raised .illegal (.word 0xFF#64) { midway loopCfg 0#2 1#32 3 with fault := 1#3 }) := by decide
/-- P4, line 3: a faulted block takes no command. -/
theorem test_faulted_block_stops :
    faultOf (step (offering 0x0000003C00000004#64 { start loopCfg with fault := 3#3 })) = some (.stopped 3#3) := by decide
/-- Section 2.7: construction with `RESET_MODE` disabled. -/
theorem test_construction_fault :
    (nextOf (construct { loopCfg with modesEnabled := ⟨false, true, true, true⟩ })).map
      (fun t => (t.fault, t.trace, t.sckLvl)) = some (4#3, [], none) := by decide
/-- Section 2.7: construction in mode 3. -/
theorem test_construction_mode3 :
    (nextOf (construct { loopCfg with
      modesEnabled := ⟨false, false, false, true⟩, resetMode := 3, resetFreqHz := 1000000#32 })).map
      (fun t => (t.mode, t.hold, t.sckLvl, t.trace)) = some (3#2, 0#32, some true, [.sck true]) := by decide

/-! The assembler (30 R70, R71). -/

theorem test_assembler_examples :
    assembleLine "SETFREQ 400_000".toList = .ok (some 0x00061A8000000002#64) ∧
    assembleLine "SELECT 1, 1 ; a comment".toList = .ok (some 0x0000000000010101#64) ∧
    assembleLine "SETMODE 0x3".toList = .ok (some 0x0000000000000303#64) := by decide
theorem test_assembler_pseudo :
    assembleLine "SETPOLPHA 1, 1".toList = .ok (some 0x0000000000000303#64) ∧
    assembleLine "DESELECT 65535".toList = .ok (some 0x00000000FFFF0001#64) ∧
    assembleLine "DATA 65535".toList = .ok (some 0x00000000FFFF0006#64) := by decide
theorem test_assembler_refuses :
    assembleLine "SETMODE 256".toList = .error .operandRange ∧ assembleLine "SELECT 1".toList = .error .operandRange ∧
    assembleLine "XCHG x".toList = .error .notANumber ∧ assembleLine "BITX0 1".toList = .error .unknownName ∧
    assembleLine "  ; only a comment".toList = .ok none := by decide

/-! Witnesses: states and operands that meet the hypotheses of the statements. -/

theorem test_witness_DecodeReadsTheFields :
    let w := 0x0000000000010101#64
    0x01#8 = w.extractLsb' 0 8 ∧ 0x01#8 = w.extractLsb' 8 8 ∧ 1#16 = w.extractLsb' 16 16 ∧
      0#32 = w.extractLsb' 32 32 := by decide

theorem test_witness_BytesAreLittleEndian :
    7 < 8 ∧ (bytesOfWord 0x0102030405060708#64)[7]? = some 0x01#8 := by decide

theorem test_witness_ModeSelectsTheMicroOperation :
    Exchanging (midway loopCfg 3#2 1#32 0) ∧ quietPort (midway loopCfg 3#2 1#32 0).inbox = true := by decide

/-- The presented word, its command and its next state without a fault. -/
theorem test_witness_StepRunsTheTakenCommand_next :
    let s := offering 0x303#64 (start loopCfg)
    s.fault = 0#3 ∧ s.inbox = .present 0x303#64 :: [] ∧ decode 0x303#64 = .ok (.setmode 3#8) ∧
      (nextOf (exec (.setmode 3#8) { s with inbox := [] })).map State.fault = some 0#3 := by decide
/-- An issued word, and a command that takes a fault. -/
theorem test_witness_StepRunsTheTakenCommand_fault :
    let s := { start loopCfg with inbox := [.issue 0x403#64] }
    s.fault = 0#3 ∧ s.inbox = .issue 0x403#64 :: [] ∧ s.busy = false ∧ decode 0x403#64 = .ok (.setmode 4#8) ∧
      (nextOf (exec (.setmode 4#8) { s with inbox := [] })).map State.fault = some (FaultName.code .modeRange) := by decide

theorem test_witness_StepRunsTheNextMicroOperation :
    let s := midway loopCfg 1#2 1#32 0
    let p := { s with inbox := [.pause] }
    (Exchanging s ∧ quietPort s.inbox = true) ∧ (Exchanging p ∧ p.inbox = .pause :: []) := by decide

theorem test_witness_IdleBlockWaits :
    EndOfRun (start loopCfg) ∧ Ready { start loopCfg with inbox := [.pause] } := by decide

theorem test_witness_FaultedBlockTakesNoStep :
    { start loopCfg with fault := 1#3 }.fault ≠ 0#3 ∧ { start loopCfg with fault := 7#3 }.fault ≠ 0#3 := by decide

/-- Both kinds of offender. -/
theorem test_witness_RaisedFaultWritesOnlyFault :
    faultOf (step (offering 0x07#64 (start loopCfg))) =
      some (.raised .illegal (.word 0x07#64) { start loopCfg with fault := 1#3 }) ∧
    faultOf (step (offering 0x403#64 (midway loopCfg 0#2 1#32 0))) =
      some (.raised .reentrant (.command (.setmode 4#8)) { midway loopCfg 0#2 1#32 0 with fault := 6#3 }) := by decide

theorem test_witness_FirstFaultInPriorityOrder_illegal :
    let s := offering 0x0000000100000703#64 (midway loopCfg 0#2 1#32 0)
    s.fault = 0#3 ∧ s.inbox = .present 0x0000000100000703#64 :: [] ∧
      decode 0x0000000100000703#64 = .error .reservedBits := by decide
theorem test_witness_FirstFaultInPriorityOrder_reentrant :
    let s := offering 0x703#64 (midway loopCfg 0#2 1#32 0)
    s.fault = 0#3 ∧ s.inbox = .present 0x703#64 :: [] ∧ decode 0x703#64 = .ok (.setmode 7#8) ∧ s.busy = true := by decide
theorem test_witness_FirstFaultInPriorityOrder_own :
    (start loopCfg).fault = 0#3 ∧ (start loopCfg).busy = false ∧
    decode 0x2#64 = .ok (.setfreq 0#32) ∧
    decode 0x403#64 = .ok (.setmode 4#8) ∧ 3 < (4#8).toNat ∧
    decode 0xFF03#64 = .ok (.setmode 255#8) ∧ 3 < (255#8).toNat ∧
    decode 0x303#64 = .ok (.setmode 3#8) ∧ (3#8).toNat ≤ 3 ∧
    modeEnabled { loopCfg with modesEnabled := ⟨true, true, true, false⟩ } ((3#8).setWidth 2) = false ∧
    decode 0x70106#64 = .ok (.cmddata 7#16 true) ∧ loopCfg.cmddataSupported = false := by decide

theorem test_witness_AnyCommandWhileBusyIsReentrant :
    Exchanging (midway loopCfg 0#2 1#32 3) ∧ (Instr.xchg 1#32).isCommand = true := by decide

theorem test_witness_SetfreqWritesHoldAndAnswersAchieved :
    (start loopCfg).fault = 0#3 ∧ 2500 = (1000000000 + (400000#32).toNat / 2) / (400000#32).toNat ∧
    2400 = (if 2500 > (start loopCfg).cfg.overheadNs then 2500 - (start loopCfg).cfg.overheadNs else 0) ∧
    1 = ((2400 + 1) / 2 + 500) / 1000 := by decide

theorem test_witness_HoldTimeIsAtMostHalfASecond :
    (1 ≤ 1001 ∧ 1001 ≤ 1000000000 ∧ 1 ≤ 1) ∧ holdTime 1001 1 = 500000 ∧ holdTime 1002 1 = 499999 := by decide
theorem test_witness_CalculatorIsMonotone : 1 ≤ 100 ∧ 100 ≤ 1000000000 ∧ 1 ≤ 910332 ∧ 910332 ≤ 910333 := by decide
theorem test_witness_AchievedStaysBelowTheCeiling : 1 ≤ 1000000000 ∧ 1000000000 ≤ 1000000000 := by decide
theorem test_witness_CeilingIsReachedOnlyAtHoldZero : 1 ≤ 900000000 ∧ 900000000 ≤ 1000000000 := by decide
theorem test_witness_ThirtyTwoBitCalculatorAgrees :
    1 ≤ (100#32).toNat ∧ (100#32).toNat ≤ 1000000000 ∧ 0xFFFFFFFF#32 ≠ 0#32 := by decide

/-- Each outcome: it completes, it is out of range, it is disabled. -/
theorem test_witness_SetmodeDrivesIdleAndSelects :
    (start loopCfg).fault = 0#3 ∧
    ((3#8).toNat > 3 ∨ modeEnabled loopCfg ((3#8).setWidth 2) = false) = False ∧ (4#8).toNat > 3 ∧
    modeEnabled { loopCfg with modesEnabled := ⟨true, true, true, false⟩ } ((3#8).setWidth 2) = false := by decide

/-- The start of a waveform, at a hold time of 0 and of 1; the sample named by the hypotheses is a value. -/
theorem test_witness_BitxMakesItsWaveform (m : Mode) (v : Level) :
    (Exchanging (midway loopCfg m 0#32 0) ∧ (midway loopCfg m 0#32 0).xstep = 0 ∧ (midway loopCfg m 0#32 0).hold = 0#32) ∧
    (Exchanging (midway loopCfg m 1#32 0) ∧ (midway loopCfg m 1#32 0).xstep = 0 ∧ (midway loopCfg m 1#32 0).hold ≠ 0#32) ∧
    v = drawSample (midway { loopCfg with cap := ⟨.tied v, .host⟩ } m 1#32 0).cfg.cap.sample 0 none [] :=
  ⟨⟨⟨rfl, rfl⟩, rfl, rfl⟩, ⟨⟨rfl, rfl⟩, rfl, (by decide : (1#32 : Data) ≠ 0#32)⟩, rfl⟩
theorem test_witness_BitxMakesItsWaveform_sample :
    true = drawSample loopCfg.cap.sample 0 (some true) [.sck false, .mosi true, .sck true] ∧
    true = drawSample loopCfg.cap.sample 0 (some true) [.sck false, .sck true, .mosi true, .sck false] ∧
    true = drawSample loopCfg.cap.sample 0 (some true) [.sck false, .sck true, .mosi true, .delay 1, .sck false] := by decide

/-- Within a waveform (its last call, at both hold times), and outside one. -/
theorem test_witness_MicroOperationMakesTheCountedCall :
    (midway loopCfg 0#2 1#32 5).fault = 0#3 ∧ (midway loopCfg 0#2 1#32 5).busy = true ∧
    (midway loopCfg 0#2 1#32 5).xstep < (if (midway loopCfg 0#2 1#32 5).hold = 0#32 then 4 else 6) ∧
    (midway loopCfg 0#2 0#32 3).xstep < (if (midway loopCfg 0#2 0#32 3).hold = 0#32 then 4 else 6) ∧
    (if (midway loopCfg 0#2 0#32 4).hold = 0#32 then 4 else 6) ≤ (midway loopCfg 0#2 0#32 4).xstep ∧
    (start loopCfg).busy = false := by decide

theorem test_witness_ShapeOfEveryBit :
    Exchanging (midway loopCfg 2#2 0#32 0) ∧ (midway loopCfg 2#2 0#32 0).xstep = 0 := by decide

theorem test_witness_XchgStartsTheExchange :
    (start loopCfg).fault = 0#3 ∧ (start loopCfg).busy = false ∧ (midway loopCfg 0#2 1#32 0).fault = 0#3 := by decide

/-- XCHG presented to a constructed block, with nothing after it and with a command that waits after it. -/
theorem test_witness_ExchangeAhead :
    ExchangeAhead 0xA5#32 [] (offering 0x000000A500000004#64 (start loopCfg)) ∧
    ExchangeAhead 0xA5#32 [.issue 0x303#64]
      { start loopCfg with inbox := [.present 0x000000A500000004#64, .issue 0x303#64] } :=
  ⟨⟨by decide, by decide, by decide, 0x000000A500000004#64, by decide, by decide⟩,
    ⟨by decide, by decide, by decide, 0x000000A500000004#64, by decide, by decide⟩⟩

theorem test_witness_HighBitsAreNeverSent :
    (0x1FF#32).toNat % 2 ^ width loopCfg = (0xFF#32).toNat % 2 ^ width loopCfg := by decide

/-- The handles of R147 and R148, each with XCHG ahead. -/
theorem test_witness_TiedAndInvertedDataIn (h : SampleHandle) :
    ExchangeAhead 0x3C#32 [] (offering 0x0000003C00000004#64 (start { loopCfg with cap := ⟨h, .host⟩ })) ∧
    (start { loopCfg with cap := ⟨h, .host⟩ }).cfg.cap.sample = h :=
  ⟨⟨rfl, ⟨rfl, rfl⟩, rfl, 0x0000003C00000004#64, by decide, rfl⟩, rfl⟩

/-- A block of width 8 that answers, and one that takes a fault. -/
theorem test_witness_Fixed8EqualsVariableOfWidth8 :
    loopCfg.variant = .variable ∧ loopCfg.widthCfg = 8 ∧
    (nextOf (runSteps 1 (offering 0x000000A500000004#64 (start loopCfg)))).map State.xi = some 7 ∧
    faultOf (runSteps 1 (offering 0x2#64 (start loopCfg))) =
      some (.raised .freqZero (.command (.setfreq 0#32)) { start loopCfg with fault := 2#3 }) := by decide

theorem test_witness_bus_commands :
    (start loopCfg).fault = 0#3 ∧ (start loopCfg).busy = false ∧ (midway loopCfg 0#2 1#32 0).busy = true ∧
    (start loopCfg).cfg.cap.status = .constant 0x01#32 ∧ (0x01#32).toNat < 2 ^ (start loopCfg).cfg.statusWidth ∧
    State.reset.cfg.cap.status = .host := by decide

/-- Each clause has an instruction that meets its premise. -/
theorem test_witness_WhoWritesWhat :
    (nextOf (exec (.setmode 3#8) (start loopCfg))).map (fun t => (t.mode, t.sckLvl)) = some (3#2, some true) ∧
    (nextOf (exec (.setfreq 1#32) (start loopCfg))).map State.hold = some 500000#32 ∧
    (nextOf (exec (.setfreq 0#32) (start loopCfg))).map State.fault = some 2#3 ∧
    (nextOf (exec (.xchg 1#32) (start loopCfg))).map State.busy = some true ∧
    (nextOf (exec (.status 7#16) (start loopCfg))).map State.draws = some 1 ∧
    (nextOf (exec (.bitx0 true) (midway loopCfg 0#2 1#32 0))).map (fun t => (t.mosiLvl, t.xstep)) =
      some (some true, 1) := by decide

theorem test_witness_TraceAndResponsesOnlyGrow :
    (nextOf (step (offering 0x303#64 (start loopCfg)))).map (fun t => (t.trace.length, t.responses.length)) =
      some (2, 1) := by decide

/-- A step within an exchange, from a state that meets the invariants. -/
theorem test_witness_StepKeepsTheInvariant :
    Inv (midway loopCfg 3#2 1#32 0) ∧ LevelsRecorded (midway loopCfg 3#2 1#32 0) ∧
    (nextOf (step (midway loopCfg 3#2 1#32 0))).map State.sckLvl = some (some false) :=
  ⟨{ accepted := by decide, notFaulted := by decide, modeOk := by decide, holdBound := by decide
     idleClock := by decide, position := by decide, movingClock := by decide, accumulator := by decide
     events := by decide }, by decide, by decide⟩

theorem test_witness_ConstructionRefusesBadConfigurations :
    { loopCfg with overheadNs := 1000000001 }.overheadNs > 1000000000 ∧
    ¬(loopCfg.overheadNs = 0 ∨ loopCfg.overheadNs > 1000000000 ∨
      (loopCfg.variant = .variable ∧ (loopCfg.widthCfg = 0 ∨ loopCfg.widthCfg > 32)) ∨
      ¬(1 ≤ loopCfg.statusWidth ∧ loopCfg.statusWidth ≤ 32) ∨ loopCfg.resetMode > 3 ∨
      loopCfg.resetFreqHz = 0#32) := by decide

theorem test_witness_ConstructionGivesTheResetValues :
    loopCfg.Accepted ∧ 0#2 = BitVec.ofNat 2 loopCfg.resetMode ∧ modeEnabled loopCfg 0#2 = true := by decide

theorem test_witness_ConstructionFaultsOnADisabledMode :
    let c := { loopCfg with modesEnabled := ⟨false, true, true, true⟩ }
    c.Accepted ∧ modeEnabled c (BitVec.ofNat 2 c.resetMode) = false := by decide

theorem test_witness_ConstructedBlocksMeetTheInvariants :
    (nextOf (construct { loopCfg with resetMode := 3 })).map State.fault = some 0#3 := by decide

/-- The ends of the operand ranges, inside and outside. -/
theorem test_witness_AssemblerEncodesOrRefuses :
    assemble ⟨.select, [65535, 1]⟩ = some 0x00000000FFFF0101#64 ∧ assemble ⟨.select, [65536, 1]⟩ = none ∧
    assemble ⟨.select, [0, 2]⟩ = none ∧ assemble ⟨.setfreq, [4294967295]⟩ = some 0xFFFFFFFF00000002#64 ∧
    assemble ⟨.xchg, [4294967296]⟩ = none ∧ assemble ⟨.setmode, [256]⟩ = none := by decide
theorem test_witness_PseudoCommandsExpand :
    assemble ⟨.setpolpha, [1, 1]⟩ = some 0x303#64 ∧ assemble ⟨.setpolpha, [2, 0]⟩ = none := by decide
theorem test_witness_AssemblerEmitsLegalWords : assemble ⟨.assert, [7]⟩ = some 0x0000000000070101#64 := by decide

end Sys2Proof.Tests
end

section
/-! SUPPORT. Scope (spec 00): which configurations are refused (R7), what a step of a block that meets its invariant
answers (R13), and the polarity and phase of the modes (R14). -/

namespace Sys2Proof.Machine

/-! Commands and the instructions that a word decodes to. -/

/-- The checks of a command stop only a faulted block; a busy one takes `F_REENTRANT` as a next state (R184, R191). -/
theorem acceptCommand_next {s : State} (hf : s.fault = 0#3) (body : State → State) :
    ∃ t, acceptCommand s body = .next t := by
  cases hb : s.busy with
  | false => exact ⟨_, acceptCommand_ready hf hb body⟩
  | true => exact ⟨_, acceptCommand_busy hf hb body⟩

/-- The host cannot issue a micro-operation: no word decodes to one (R69). -/
theorem isCommand_of_decode {w : CmdWord} {i : Instr} (h : decode w = .ok i) : i.isCommand = true := by
  unfold decode at h
  split_ifs at h
  all_goals
    obtain ⟨-, rfl⟩ := (withReservedClear_ok_iff _ _ _ _).1 h
    rfl

/-! What a step answers (R13, R180, R183). -/

theorem nextAction_ne_stopped {s : State} (hf : s.fault = 0#3) (code : BitVec 3) : nextAction s ≠ .stopped code := by
  unfold nextAction noCommand takeWord
  rw [if_neg (not_not.2 hf)]
  repeat' split
  all_goals simp

/-- Reporting a next state answers that state, or the fault that its `FAULT` names (R183). -/
theorem reportFault_next_cases (off : Offender) (t : State) :
    reportFault off (.next t) = .next t ∨ ∃ f, reportFault off (.next t) = .fault (.raised f off t) := by
  cases hc : faultOfCode t.fault with
  | none => exact .inl (by simp [reportFault, hc])
  | some f => exact .inr ⟨f, by simp [reportFault, hc]⟩

/-- Within an exchange the loop position points at a call of the running waveform, so the micro-operation that `MODE`
selects has one to make (R26, R145). -/
theorem exec_selectMicroOp_next {s : State} (hs : Inv s) (hb : s.busy = true) (inbox : List HostMove) :
    ∃ t, exec (selectMicroOp s.mode (currentBit s)) { s with inbox := inbox } = .next t := by
  have hpos : s.xstep < (liveCalls s.hold (waveform s.mode (currentBit s))).length := (hs.position hb).2
  rw [exec_selectMicroOp]
  exact ⟨_, microStep_of_call hs.notFaulted hb (List.getElem?_eq_getElem hpos)⟩

/-- The instruction that a step runs from the invariant has a next state. -/
theorem exec_next_of_nextAction {s u : State} {i : Instr} (hs : Inv s) (ha : nextAction s = .run i u) :
    ∃ t, exec i u = .next t := by
  obtain ⟨hf, hu, ⟨hb, rfl⟩ | ⟨w, -, hd⟩⟩ := nextAction_start.2.2 i u ha
  · rw [hu]
    exact exec_selectMicroOp_next hs hb u.inbox
  · rw [exec_command (isCommand_of_decode hd)]
    exact acceptCommand_next (by rw [hu]; exact hf) _

/-- Settles O48, by the action of the step: a fault comes only from an illegal word or from the instruction that runs,
and that instruction is a command, or the micro-operation whose call the loop position names. -/
theorem invariantStepsAreNeverRefused : Obligations.InvariantStepsAreNeverRefused := by
  intro s hs
  unfold step
  cases ha : nextAction s with
  | stopped code => exact absurd ha (nextAction_ne_stopped hs.notFaulted code)
  | wait t => exact .inl ⟨t, rfl⟩
  | illegal w t =>
    exact (reportFault_next_cases (.word w) (takeFault .illegal t)).imp (⟨_, ·⟩) fun ⟨f, h⟩ => ⟨f, _, _, h⟩
  | run i u =>
    obtain ⟨t, ht⟩ := exec_next_of_nextAction hs ha
    simp only [ht]
    exact (reportFault_next_cases (.command i) t).imp (⟨_, ·⟩) fun ⟨f, h⟩ => ⟨f, _, _, h⟩

/-! Construction (R7, R200, R201). -/

/-- R7's list holds of a configuration exactly when it is not accepted. -/
theorem not_accepted_iff (c : Config) : ¬ c.Accepted ↔
    (c.overheadNs = 0 ∨ c.overheadNs > 1000000000 ∨
      (c.variant = .variable ∧ (c.widthCfg = 0 ∨ c.widthCfg > 32)) ∨
      ¬(1 ≤ c.statusWidth ∧ c.statusWidth ≤ 32) ∨ c.resetMode > 3 ∨ c.resetFreqHz = 0#32) := by
  rw [not_iff_comm, accepted_iff]
  -- The double negation of the `STATUS_WIDTH` range goes first, before `not_and` can rewrite inside it.
  simp only [not_or, not_not]
  simp only [not_and, not_or, not_lt, gt_iff_lt, Nat.one_le_iff_ne_zero, and_assoc, ne_eq]

/-- Both commands of construction are taken, so an accepted configuration gives a block, faulted or not (R200, R201). -/
theorem construct_accepted {c : Config} (h : c.Accepted) : ∃ s, construct c = .next s := by
  have hm : execSetmode (BitVec.ofNat 8 c.resetMode) (unconstructed c) =
      .next (setmodeBody (BitVec.ofNat 8 c.resetMode) (unconstructed c)) := acceptCommand_ready rfl rfl _
  unfold construct
  rw [if_neg (not_not.2 h), hm]
  by_cases hf : (setmodeBody (BitVec.ofNat 8 c.resetMode) (unconstructed c)).fault = 0#3
  · obtain ⟨t, ht⟩ := acceptCommand_next hf (setfreqBody c.resetFreqHz)
    exact ⟨discardResponses t, by simp [hf, execSetfreq, ht]⟩
  · exact ⟨_, if_pos hf⟩

/-- Settles O50: R7's list is the complement of acceptance, which decides what `construct` answers. -/
theorem constructionRefusesBadConfigurations : Obligations.ConstructionRefusesBadConfigurations := by
  intro c
  rw [← not_accepted_iff, not_not]
  exact ⟨fun h => ⟨_, construct_refused h⟩, construct_accepted⟩

/-- Settles O24: R14's table row by row; the idle level and `CPOL` are the same bit `m[1]` (R101). -/
theorem polarityAndPhaseOfTheModes : Obligations.PolarityAndPhaseOfTheModes :=
  ⟨by decide, by decide, by decide, by decide, fun _ => rfl⟩

end Sys2Proof.Machine
end

section
/-! SUPPORT. The state (spec 10): which instruction may write which element (R30), what a step appends to the trace and
to the responses (R28, R41, R42, R68), the driven levels (R27), and the values at reset and after construction (R31,
R200). -/

namespace Sys2Proof.Machine

/-! What the commands write. -/

/-- What a command writes when it takes no fault: the last branch of its own part, without the checks before it. A
micro-operation has no such part. -/
def commandEffect : Instr → State → State
  | .select dev a, s => selectBody dev a s
  | .setfreq hz, s =>
    respond (.value (BitVec.ofNat 32 (achieved s.cfg.overheadNs (holdTime s.cfg.overheadNs hz.toNat))))
      { s with hold := BitVec.ofNat 32 (holdTime s.cfg.overheadNs hz.toNat) }
  | .setmode m, s => respond .noValue { setClk (idle (m.setWidth 2)) s with mode := m.setWidth 2 }
  | .xchg x, s => startExchange x s
  | .status dev, s => statusBody dev s
  | .cmddata dev c, s => respond .noValue (cmdModeCall dev c s)
  | .bitx0 _, s => s
  | .bitx1 _, s => s
  | .bitx2 _, s => s
  | .bitx3 _, s => s

theorem setfreqBody_of_ne {hz : Data} (h : hz ≠ 0#32) (s : State) :
    setfreqBody hz s = commandEffect (.setfreq hz) s := if_neg h

theorem setmodeBody_of_enabled {m : BitVec 8} {s : State} (hr : ¬ 3 < m.toNat)
    (he : modeEnabled s.cfg (m.setWidth 2) = true) : setmodeBody m s = commandEffect (.setmode m) s := by
  rw [setmodeBody, if_neg hr, if_neg (by simp [he])]
  rfl

theorem execSetfreq_of_ne {hz : Data} {s : State} (hf : s.fault = 0#3) (hb : s.busy = false) (h : hz ≠ 0#32) :
    execSetfreq hz s = .next (commandEffect (.setfreq hz) s) := by
  rw [execSetfreq, acceptCommand_ready hf hb, setfreqBody_of_ne h]

theorem execSetmode_of_enabled {m : BitVec 8} {s : State} (hf : s.fault = 0#3) (hb : s.busy = false)
    (hr : ¬ 3 < m.toNat) (he : modeEnabled s.cfg (m.setWidth 2) = true) :
    execSetmode m s = .next (commandEffect (.setmode m) s) := by
  rw [execSetmode, acceptCommand_ready hf hb, setmodeBody_of_enabled hr he]

/-- A command's own part either takes a fault or has the command's effect (R80, R100, R162, R183). -/
theorem commandBody_cases (i : Instr) (s : State) :
    (∃ f, commandBody i s = takeFault f s) ∨ commandBody i s = commandEffect i s := by
  cases i with
  | setfreq hz =>
    by_cases h : hz = 0#32
    · exact .inl ⟨.freqZero, if_pos h⟩
    · exact .inr (setfreqBody_of_ne h s)
  | setmode m =>
    by_cases hr : 3 < m.toNat
    · exact .inl ⟨.modeRange, if_pos hr⟩
    · cases he : modeEnabled s.cfg (m.setWidth 2)
      · exact .inl ⟨.modeDisabled, by simp [commandBody, setmodeBody, hr, he]⟩
      · exact .inr (setmodeBody_of_enabled hr he)
  | cmddata dev c =>
    by_cases h : s.cfg.cmddataSupported = false
    · exact .inl ⟨.unsupported, if_pos h⟩
    · exact .inr (if_neg h)
  | select _ _ | xchg _ | status _ | bitx0 _ | bitx1 _ | bitx2 _ | bitx3 _ => exact .inr rfl

/-- An instruction with a next state: a command that takes a fault, a command that has its effect, or a micro-operation
that makes one call (R145, R183). -/
theorem exec_next_writes {i : Instr} {s t : State} (h : exec i s = .next t) :
    s.fault = 0#3 ∧
      ((i.isCommand = true ∧ ∃ f, t = takeFault f s) ∨
       (i.isCommand = true ∧ t = commandEffect i s) ∨
       (i.isCommand = false ∧ ∃ c last, t = advanceWith c last s)) := by
  obtain ⟨hf, ⟨hi, -, ht⟩ | ⟨hi, -, rfl⟩ | ⟨hi, -, c, -, ht⟩⟩ := exec_next_cases h
  · exact ⟨hf, .inl ⟨hi, _, ht⟩⟩
  · exact ⟨hf, (commandBody_cases i s).imp (⟨hi, ·⟩) (.inl ⟨hi, ·⟩)⟩
  · exact ⟨hf, .inr (.inr ⟨hi, c, _, ht⟩)⟩

@[simp] theorem commandEffect_cfg (i : Instr) (s : State) : (commandEffect i s).cfg = s.cfg := by cases i <;> rfl
@[simp] theorem commandEffect_fault (i : Instr) (s : State) : (commandEffect i s).fault = s.fault := by cases i <;> rfl
@[simp] theorem commandEffect_mosiLvl (i : Instr) (s : State) : (commandEffect i s).mosiLvl = s.mosiLvl := by
  cases i <;> rfl
@[simp] theorem commandEffect_inbox (i : Instr) (s : State) : (commandEffect i s).inbox = s.inbox := by cases i <;> rfl

theorem commandEffect_mode (i : Instr) (s : State) :
    (commandEffect i s).mode = s.mode ∨ ∃ m, i = .setmode m := by
  cases i with
  | setmode m => exact .inr ⟨m, rfl⟩
  | _ => exact .inl rfl

theorem commandEffect_hold (i : Instr) (s : State) :
    (commandEffect i s).hold = s.hold ∨ ∃ hz, i = .setfreq hz := by
  cases i with
  | setfreq hz => exact .inr ⟨hz, rfl⟩
  | _ => exact .inl rfl

/-- `BUSY` and the loop position of R26 are XCHG's. -/
theorem commandEffect_exchange (i : Instr) (s : State) :
    ((commandEffect i s).busy, (commandEffect i s).xi, (commandEffect i s).xacc, (commandEffect i s).xdout,
      (commandEffect i s).xstep) = (s.busy, s.xi, s.xacc, s.xdout, s.xstep) ∨ ∃ x, i = .xchg x := by
  cases i with
  | xchg x => exact .inr ⟨x, rfl⟩
  | _ => exact .inl rfl

theorem commandEffect_sckLvl (i : Instr) (s : State) :
    (commandEffect i s).sckLvl = s.sckLvl ∨ ∃ m, i = .setmode m := by
  cases i with
  | setmode m => exact .inr ⟨m, rfl⟩
  | _ => exact .inl rfl

theorem commandEffect_draws (i : Instr) (s : State) :
    (commandEffect i s).draws = s.draws ∨ ∃ dev, i = .status dev := by
  cases i with
  | status dev => exact .inr ⟨dev, rfl⟩
  | _ => exact .inl rfl

/-- Settles O44, by what the instruction did: a taken fault writes `FAULT` alone, a command's effect leaves what R30
does not give it, and a micro-operation's call leaves `MODE`, `HOLD` and `FAULT`. -/
theorem whoWritesWhat : Obligations.WhoWritesWhat := by
  intro i s t h
  obtain ⟨hf, ⟨hi, f, rfl⟩ | ⟨hi, rfl⟩ | ⟨hi, c, last, rfl⟩⟩ := exec_next_writes h
  · exact ⟨rfl, rfl, (absurd rfl ·), (absurd rfl ·), fun _ => ⟨hf, hi, rfl⟩, (absurd rfl ·), (absurd rfl ·),
      (absurd rfl ·), (absurd rfl ·)⟩
  · exact ⟨commandEffect_cfg i s, commandEffect_inbox i s, (commandEffect_mode i s).resolve_left,
      (commandEffect_hold i s).resolve_left, (absurd (commandEffect_fault i s) ·),
      fun hx => .inl ((commandEffect_exchange i s).resolve_left hx),
      fun hx => .inl ((commandEffect_sckLvl i s).resolve_left hx), (absurd (commandEffect_mosiLvl i s) ·),
      fun hx => .inl ((commandEffect_draws i s).resolve_left hx)⟩
  · simp [hi]

/-! What an instruction and a step append. -/

/-- `t` has the trace of `s` with at most one event more and the responses of `s` with at most one more, and its levels
are those of `s` except where the new event drives one. -/
structure Appends (e : Option Event) (r : Option Response) (s t : State) : Prop where
  trace : t.trace = s.trace ++ e.toList
  responses : t.responses = s.responses ++ r.toList
  sckLvl : t.sckLvl = (lastSck e.toList).or s.sckLvl
  mosiLvl : t.mosiLvl = (lastMosi e.toList).or s.mosiLvl

/-- A state in which nothing of the four was written. -/
theorem Appends.nothing {s t : State} (ht : t.trace = s.trace) (hr : t.responses = s.responses)
    (hc : t.sckLvl = s.sckLvl) (hm : t.mosiLvl = s.mosiLvl) : Appends none none s t :=
  ⟨by simpa using ht, by simpa using hr, by simpa [lastSck] using hc, by simpa [lastMosi] using hm⟩

/-- The host's moves do not matter to what is appended. -/
theorem Appends.of_inbox {e : Option Event} {r : Option Response} {s u t : State}
    (hu : u = { s with inbox := u.inbox }) (h : Appends e r u t) : Appends e r s t := by
  rw [hu] at h
  exact ⟨h.trace, h.responses, h.sckLvl, h.mosiLvl⟩

/-- A command makes at most one capability call and returns at most one response (R41, R68). -/
theorem commandEffect_appends (i : Instr) (s : State) : ∃ e r, Appends e r s (commandEffect i s) := by
  cases i with
  | select dev a => exact ⟨some (.cs dev a), some .noValue, ⟨rfl, rfl, rfl, rfl⟩⟩
  | setfreq hz => exact ⟨none, some _, ⟨by simp [commandEffect], rfl, rfl, rfl⟩⟩
  | setmode m => exact ⟨some (.sck (idle (m.setWidth 2))), some .noValue, ⟨rfl, rfl, rfl, rfl⟩⟩
  | status dev => exact ⟨some (.stat dev (statusNow dev s)), some _, ⟨rfl, rfl, rfl, rfl⟩⟩
  | cmddata dev c => exact ⟨some (.cmd dev c), some .noValue, ⟨rfl, rfl, rfl, rfl⟩⟩
  | xchg _ | bitx0 _ | bitx1 _ | bitx2 _ | bitx3 _ => exact ⟨none, none, .nothing rfl rfl rfl rfl⟩

/-- A waveform's call records the level that it drives (R120). -/
theorem performCall_appends (c : Call) (s : State) : Appends (some (callEvent c s)) none s (performCall c s) :=
  ⟨performCall_trace c s, by simp, by cases c <;> rfl, by cases c <;> rfl⟩

/-- The end of a bit returns the exchange's response after the last one (R145). -/
theorem finishBit_responses (s : State) :
    ∃ r : Option Response, (finishBit s).responses = s.responses ++ r.toList := by
  by_cases h : s.xi = 0
  · exact ⟨some (.value (shiftIn s.xacc s.xsmp)), by rw [finishBit_last h]; rfl⟩
  · exact ⟨none, by simp [finishBit_more h]⟩

theorem advanceWith_appends (c : Call) (last : Bool) (s : State) :
    ∃ e r, Appends e r s (advanceWith c last s) := by
  have hc := performCall_appends c s
  obtain ⟨-, heq⟩ | ⟨-, heq⟩ := advanceWith_cases c last s
  · obtain ⟨r, hr⟩ := finishBit_responses { performCall c s with xstep := s.xstep + 1 }
    rw [heq]
    exact ⟨some (callEvent c s), r,
      ⟨by simp, by simpa using hr, by simpa using hc.sckLvl, by simpa using hc.mosiLvl⟩⟩
  · rw [heq]
    exact ⟨_, none, ⟨hc.trace, hc.responses, hc.sckLvl, hc.mosiLvl⟩⟩

theorem exec_appends {i : Instr} {s t : State} (h : exec i s = .next t) : ∃ e r, Appends e r s t := by
  obtain ⟨-, ⟨-, f, rfl⟩ | ⟨-, rfl⟩ | ⟨-, c, last, rfl⟩⟩ := exec_next_writes h
  · exact ⟨none, none, .nothing rfl rfl rfl rfl⟩
  · exact commandEffect_appends i s
  · exact advanceWith_appends c last s

/-- A step appends what the instruction that it runs appends; a waiting step appends nothing. -/
theorem step_appends {s t : State} (h : step s = .next t) : ∃ e r, Appends e r s t := by
  obtain hw | ⟨i, u, ha, hx, -⟩ := step_next_cases h
  · obtain ⟨-, -, ht⟩ := nextAction_start.1 t hw
    exact ⟨none, none, .of_inbox (u := t) ht (.nothing rfl rfl rfl rfl)⟩
  · obtain ⟨-, hu, -⟩ := nextAction_start.2.2 i u ha
    obtain ⟨e, r, happ⟩ := exec_appends hx
    exact ⟨e, r, .of_inbox hu happ⟩

/-- Settles O45: the event and the response that a step appends are one each, or none. -/
theorem traceAndResponsesOnlyGrow : Obligations.TraceAndResponsesOnlyGrow := by
  intro s t h
  obtain ⟨e, r, happ⟩ := step_appends h
  exact ⟨e.toList, r.toList, happ.trace, by cases e <;> simp, happ.responses, by cases r <;> simp⟩

/-- What is appended keeps the levels the last ones driven: a new event drives its line last (R27). -/
theorem Appends.levelsRecorded {e : Option Event} {r : Option Response} {s t : State} (h : Appends e r s t)
    (hs : LevelsRecorded s) : LevelsRecorded t := by
  obtain ⟨hsck, hmosi⟩ := hs
  unfold LevelsRecorded
  rw [h.sckLvl, h.mosiLvl, h.trace, hsck, hmosi]
  cases e with
  | none => simp [lastSck, lastMosi]
  | some ev => exact ⟨(lastSck_snoc s.trace ev).symm, (lastMosi_snoc s.trace ev).symm⟩

/-- Settles O46, by what a step appends. -/
theorem levelsStayTheLastDriven : Obligations.LevelsStayTheLastDriven := by
  intro s t hs h
  obtain ⟨e, r, happ⟩ := step_appends h
  exact happ.levelsRecorded hs

/-! Reset and construction (R31, R200). -/

/-- Settles O49, part by part: no exchange is in progress, and the one event of the trace drove the clock to the idle
level of mode 0. -/
theorem resetMeetsTheInvariants : Obligations.ResetMeetsTheInvariants :=
  ⟨{ accepted := by decide
     notFaulted := rfl
     modeOk := rfl
     holdBound := by decide
     idleClock := fun _ => rfl
     position := nofun
     movingClock := nofun
     accumulator := nofun
     events := rfl }, rfl, rfl⟩

/-- The block that construction gives when the reset mode is enabled (R31, R200). -/
def constructed (c : Config) (m : Mode) : State :=
  { unconstructed c with
    mode := m
    hold := BitVec.ofNat 32 (holdTime c.overheadNs c.resetFreqHz.toNat)
    sckLvl := some (idle m)
    trace := [.sck (idle m)] }

/-- Unless SETMODE faults, construction ends with the effect of SETFREQ, the responses discarded (R200). -/
theorem construct_of_execSetmode {c : Config} {s : State} (h : c.Accepted)
    (hset : execSetmode (BitVec.ofNat 8 c.resetMode) (unconstructed c) = .next s) (hf : s.fault = 0#3)
    (hb : s.busy = false) :
    construct c = .next (discardResponses (commandEffect (.setfreq c.resetFreqHz) s)) := by
  obtain ⟨-, -, -, -, -, -, hfreq⟩ := (accepted_iff c).1 h
  unfold construct
  rw [if_neg (not_not.2 h), hset]
  dsimp only
  rw [if_neg (not_not.2 hf), execSetfreq_of_ne hf hb hfreq]

theorem construct_enabled {c : Config} (h : c.Accepted)
    (he : modeEnabled c (BitVec.ofNat 2 c.resetMode) = true) :
    construct c = .next (constructed c (BitVec.ofNat 2 c.resetMode)) := by
  obtain ⟨-, -, -, -, -, hmode, -⟩ := (accepted_iff c).1 h
  obtain ⟨hr, hm⟩ := resetMode_setWidth hmode
  have hset := execSetmode_of_enabled (s := unconstructed c) rfl rfl hr (by rw [hm]; exact he)
  rw [construct_of_execSetmode h hset rfl rfl]
  simp only [commandEffect, hm]
  rfl

/-- Settles O51: the values of R31 are read off the constructed block. -/
theorem constructionGivesTheResetValues : Obligations.ConstructionGivesTheResetValues := by
  rintro c m h rfl he
  exact ⟨_, construct_enabled h he, rfl, rfl, rfl, rfl, rfl, rfl, rfl, rfl, rfl⟩

end Sys2Proof.Machine
end

section
/-! SUPPORT. Ordering (spec 20): a word in bytes is little-endian (R43), and an exchange drives the bits of its word
most significant first (R43, R44). An exchange is followed bit by bit: the run of one waveform, the iteration of it, and
the events that it appends. -/

namespace Sys2Proof.Machine

/-! A word in bytes (R43, R67). -/

theorem getElem?_bytesOfWord (w : CmdWord) {k : Nat} (hk : k < 8) :
    (bytesOfWord w)[k]? = some (w.extractLsb' (8 * k) 8) := by
  interval_cases k <;> rfl

/-- Neighbouring bytes join into one field of the word, until the field is the whole word. -/
theorem wordOfBytes_bytesOfWord (w : CmdWord) : wordOfBytes (bytesOfWord w) = some w := by
  simp (disch := decide) only [wordOfBytes, bytesOfWord, BitVec.extractLsb'_append_extractLsb'_eq_extractLsb']
  exact congrArg some BitVec.extractLsb'_eq_self

theorem decodeBytes_bytesOfWord (w : CmdWord) : decodeBytes (bytesOfWord w) = decode w := by
  rw [decodeBytes, wordOfBytes_bytesOfWord]

/-- Settles O4: the bytes are read off one by one, and joined they are the word, so they decode as it does. -/
theorem bytesAreLittleEndian : Obligations.BytesAreLittleEndian := fun w =>
  ⟨rfl, fun _ hk => getElem?_bytesOfWord w hk, wordOfBytes_bytesOfWord w, decodeBytes_bytesOfWord w⟩

/-! The start step of an exchange (R145). -/

theorem decode_of_encode_xchg {x : Data} {w : CmdWord} (h : encode (.xchg x) = some w) :
    decode w = .ok (.xchg x) := by
  cases h
  simp [decode, withReservedClear, xchgRow_matches]

theorem step_of_run {s u t : State} {i : Instr} (ha : nextAction s = .run i u) (hx : exec i u = .next t)
    (hf : t.fault = 0#3) : step s = .next t := by
  simp [step, ha, hx, reportFault, hf]

theorem step_of_exchangeAhead {x : Data} {rest : List HostMove} {s : State} (h : ExchangeAhead x rest s) :
    step s = .next (startExchange x { s with inbox := rest }) := by
  obtain ⟨-, ⟨hf, hb⟩, -, w, hw, hin⟩ := h
  have haction : nextAction s = .run (.xchg x) { s with inbox := rest } := by
    simp [nextAction, hf, hin, takeWord, decode_of_encode_xchg hw]
  exact step_of_run haction (acceptCommand_ready (s := { s with inbox := rest }) hf hb _) hf

/-! The run of one bit: the micro-steps of its waveform (R145). -/

/-- With no command presented, a step of an exchange makes the call that the loop position names. -/
theorem step_of_exchanging {s : State} {c : Call} (hs : Exchanging s) (hq : quietPort s.inbox = true)
    (hc : (currentCalls s)[s.xstep]? = some c) :
    step s = .next (advanceWith c (s.xstep + 1 == (currentCalls s).length) s) := by
  obtain ⟨hf, hb⟩ := hs
  have haction : nextAction s = .run (selectMicroOp s.mode (currentBit s)) s := by
    unfold nextAction
    rw [if_neg (not_not.2 hf)]
    match hin : s.inbox with
    | [] => simp [noCommand, hb]
    | .issue w :: rest => simp [noCommand, hb]
    | .pause :: _ | .present _ :: _ => simp [hin, quietPort] at hq
  have hexec := exec_selectMicroOp s.mode (currentBit s) s
  rw [microStep_of_call hf hb hc] at hexec
  exact step_of_run haction hexec (by rw [advanceWith_fault, hf])

/-- A waveform's calls do not read the count of the calls made. -/
theorem runCalls_xstep (calls : List Call) (s : State) (n : Nat) :
    runCalls calls { s with xstep := n } = { runCalls calls s with xstep := n } := by
  induction calls generalizing s with
  | nil => rfl
  | cons c calls ih =>
    have hc : performCall c { s with xstep := n } = { performCall c s with xstep := n } := by cases c <;> rfl
    rw [runCalls_cons, hc, ih, runCalls_cons]

/-- The calls still to make of the running waveform, one step each, and then the end of the bit. -/
theorem runSteps_calls {made todo : List Call} {s : State} (hs : Exchanging s) (hq : quietPort s.inbox = true)
    (hcalls : currentCalls s = made ++ todo) (hx : s.xstep = made.length) (hne : todo ≠ []) :
    runSteps todo.length s = .next (finishBit { runCalls todo s with xstep := (currentCalls s).length }) := by
  induction todo generalizing made s with
  | nil => exact absurd rfl hne
  | cons c todo ih =>
    have hstep := step_of_exchanging (c := c) hs hq (by simp [hcalls, hx])
    rw [List.length_cons, runSteps, hstep]
    cases todo with
    | nil => simp [runSteps, hcalls, hx, advanceWith]
    | cons d todo =>
      have hlast : (s.xstep + 1 == (currentCalls s).length) = false := by simp [hcalls, hx]
      have hsame : currentCalls { performCall c s with xstep := s.xstep + 1 } = currentCalls s := by
        simp [currentCalls, currentBit]
      rw [hlast]
      have hrest := ih (made := made ++ [c]) (s := { performCall c s with xstep := s.xstep + 1 }) (by simpa using hs)
        (by simpa using hq) (by rw [hsame, hcalls, List.append_assoc]; rfl) (by simp [hx]) (by simp)
      rw [hsame, runCalls_xstep] at hrest
      exact hrest

/-- The block after the whole waveform of the bit at `XI`. -/
def afterBit (s : State) : State :=
  finishBit { runCalls (currentCalls s) s with xstep := (currentCalls s).length }

/-- An exchange at the first call of a bit, with no command presented. -/
structure BitStart (s : State) : Prop where
  exchanging : Exchanging s
  quiet : quietPort s.inbox = true
  noCallMade : s.xstep = 0

theorem currentCalls_length (s : State) : (currentCalls s).length = callsPerBit s.hold :=
  liveCalls_waveform_length s.hold s.mode (currentBit s)

theorem runSteps_bit {s : State} (hs : BitStart s) : runSteps (callsPerBit s.hold) s = .next (afterBit s) := by
  have hne : currentCalls s ≠ [] := by
    apply List.ne_nil_of_length_pos
    rw [currentCalls_length, callsPerBit]
    split <;> decide
  rw [← currentCalls_length]
  exact runSteps_calls (made := []) hs.exchanging hs.quiet rfl hs.noCallMade hne

/-! What a bit leaves alone, and where it leaves the loop (R145). -/

theorem afterBit_frame (s : State) :
    (afterBit s).cfg = s.cfg ∧ (afterBit s).mode = s.mode ∧ (afterBit s).hold = s.hold ∧
    (afterBit s).fault = s.fault ∧ (afterBit s).xdout = s.xdout ∧ (afterBit s).inbox = s.inbox := by
  obtain ⟨hcfg, hmode, hhold, hfault, -, -, -, hxdout, -, -, hinbox⟩ := runCalls_frame (currentCalls s) s
  simp [afterBit, *]

theorem afterBit_xi (s : State) : (afterBit s).xi = s.xi - 1 := by
  obtain ⟨-, -, -, -, -, hxi, -⟩ := runCalls_frame (currentCalls s) s
  by_cases h : s.xi = 0 <;> simp [afterBit, finishBit, respond, hxi, h]

theorem bitStart_afterBit {s : State} (hs : BitStart s) (h : s.xi ≠ 0) : BitStart (afterBit s) := by
  obtain ⟨-, -, -, hfault, -, hinbox⟩ := afterBit_frame s
  obtain ⟨-, -, -, -, hbusy, hxi, -⟩ := runCalls_frame (currentCalls s) s
  obtain ⟨⟨hf, hb⟩, hq, -⟩ := hs
  have hmore := finishBit_more (s := { runCalls (currentCalls s) s with xstep := (currentCalls s).length })
    (by simpa [hxi] using h)
  exact ⟨⟨hfault.trans hf, (congrArg State.busy hmore).trans (hbusy.trans hb)⟩, by rw [hinbox, hq],
    congrArg State.xstep hmore⟩

/-! The run of a word: its start step and its bits (R145, R146). -/

theorem runSteps_bits {k : Nat} {s : State} (hs : BitStart s) (hk : k ≤ s.xi + 1) :
    runSteps (callsPerBit s.hold * k) s = .next (afterBit^[k] s) := by
  induction k generalizing s with
  | zero => rfl
  | succ k ih =>
    rw [Nat.mul_succ, Nat.add_comm, runSteps_add _ (runSteps_bit hs), Function.iterate_succ_apply]
    obtain rfl | hpos := k.eq_zero_or_pos
    · rfl
    · obtain ⟨-, -, hhold, -⟩ := afterBit_frame s
      rw [← hhold]
      exact ih (bitStart_afterBit hs (by omega)) (by rw [afterBit_xi]; omega)

theorem bitStart_startExchange {x : Data} {rest : List HostMove} {s : State} (h : ExchangeAhead x rest s) :
    BitStart (startExchange x { s with inbox := rest }) := by
  obtain ⟨-, ⟨hf, -⟩, hq, -⟩ := h
  exact ⟨⟨hf, rfl⟩, hq, rfl⟩

/-- An exchange runs the waveforms of its `WIDTH` bits. -/
theorem runSteps_exchange {x : Data} {rest : List HostMove} {s : State} (h : ExchangeAhead x rest s) :
    runSteps (exchangeSteps s) s = .next (afterBit^[width s.cfg] (startExchange x { s with inbox := rest })) := by
  have hstart : runSteps 1 s = .next (startExchange x { s with inbox := rest }) := by
    simp [runSteps, step_of_exchangeAhead h]
  rw [exchangeSteps, runSteps_add _ hstart]
  exact runSteps_bits (bitStart_startExchange h) (by simp; omega)

/-! The events that an exchange appends (R41, R43). -/

/-- The events of a list of calls. -/
def callEvents : List Call → State → List Event
  | [], _ => []
  | c :: calls, s => callEvent c s :: callEvents calls (performCall c s)

/-- The events of the next `n` bits of an exchange. -/
def bitEvents : Nat → State → List Event
  | 0, _ => []
  | n + 1, s => callEvents (currentCalls s) s ++ bitEvents n (afterBit s)

theorem runCalls_trace (calls : List Call) (s : State) :
    (runCalls calls s).trace = s.trace ++ callEvents calls s := by
  induction calls generalizing s with
  | nil => simp [callEvents]
  | cons c calls ih => simp [callEvents, ih]

theorem afterBit_trace (s : State) : (afterBit s).trace = s.trace ++ callEvents (currentCalls s) s := by
  simp [afterBit, runCalls_trace]

theorem iterate_afterBit_trace (n : Nat) (s : State) : (afterBit^[n] s).trace = s.trace ++ bitEvents n s := by
  induction n generalizing s with
  | zero => simp [bitEvents]
  | succ n ih => simp [bitEvents, ih, afterBit_trace]

/-! The levels driven on the data-out line (R43, R44, R120). -/

/-- The level that a call drives on the data-out line. -/
def dataDriven : Call → Option Level
  | .setMosi v => some v
  | .setClk _ => none
  | .sample => none
  | .hold => none

theorem mosiOf_callEvents (calls : List Call) (s : State) :
    (callEvents calls s).filterMap mosiOf = calls.filterMap dataDriven := by
  induction calls generalizing s with
  | nil => rfl
  | cons c calls ih =>
    have hc : mosiOf (callEvent c s) = dataDriven c := by cases c <;> rfl
    simp [callEvents, List.filterMap_cons, hc, ih]

/-- Every waveform drives its data bit once, whatever the hold time (R121 to R124). -/
theorem dataDriven_liveCalls_waveform (h : Data) (m : Mode) (d : Level) :
    (liveCalls h (waveform m d)).filterMap dataDriven = [d] := by
  by_cases hh : h = 0#32
  · rw [hh, liveCalls_zero]
    revert m d
    decide
  · rw [liveCalls_of_ne hh]
    revert m d
    decide

/-- From bit `n - 1` on, the data word's bits are driven downwards. -/
theorem mosiOf_bitEvents {n : Nat} {s : State} (hxi : s.xi = n - 1) :
    (bitEvents n s).filterMap mosiOf = (List.range n).reverse.map (fun i => s.xdout.getLsbD i) := by
  induction n generalizing s with
  | zero => rfl
  | succ n ih =>
    obtain ⟨-, -, -, -, hxdout, -⟩ := afterBit_frame s
    have hbit : (callEvents (currentCalls s) s).filterMap mosiOf = [s.xdout.getLsbD n] := by
      rw [mosiOf_callEvents, currentCalls, dataDriven_liveCalls_waveform, currentBit, dataBit, hxi, Nat.add_sub_cancel]
    have hrest := ih (s := afterBit s) (by rw [afterBit_xi, hxi]; rfl)
    rw [hxdout] at hrest
    rw [bitEvents, List.filterMap_append, hbit, hrest, List.range_succ]
    simp

/-- Settles O36: the exchange is the run of its bits from `WIDTH - 1` down to 0, and each drives its own. -/
theorem wordIsSentMsbFirst : Obligations.WordIsSentMsbFirst := by
  intro x rest s h
  exact ⟨_, bitEvents (width s.cfg) (startExchange x { s with inbox := rest }), runSteps_exchange h,
    iterate_afterBit_trace _ _, mosiOf_bitEvents rfl⟩

end Sys2Proof.Machine
end

section
/-! SUPPORT. Encoding (spec 30): the decoder by the rows of R65, the encoder as its inverse (R61), the words that the
assembler emits (R70, R71), and which instruction a step takes from the port or from an exchange in progress (R60,
R69). -/

namespace Sys2Proof.Machine

/-! The fields of a word (R62). -/

theorem packWord_eq_iff (imm : Data) (dev : DevId) (a op : BitVec 8) (w : CmdWord) :
    packWord imm dev a op = w ↔ immField w = imm ∧ devField w = dev ∧ aField w = a ∧ opField w = op := by
  conv_lhs => rw [eq_comm, ← packWord_fields w]
  exact packWord_inj ..

/-- The bit `W[8]` is `A[0]` (R63). -/
theorem flagBit_eq_aField (w : CmdWord) : flagBit w = (aField w).getLsbD 0 := by
  rw [← packWord_fields w, flagBit_packWord, aField_packWord]

theorem aField_eq_flagField_iff (w : CmdWord) (b : Bool) :
    aField w = flagField b ↔ (aField w).extractLsb' 1 7 = 0#7 ∧ flagBit w = b := by
  rw [flagBit_eq_aField]
  constructor
  · intro h
    rw [h]
    exact ⟨flagField_reserved b, flagField_getLsbD_zero b⟩
  · rintro ⟨h, rfl⟩
    exact eq_flagField_of_reserved _ h

/-! The decoder by the rows of R65. -/

/-- A word is a command when it matches a row of R65, and then it is the row's command with the fields of the word. -/
theorem decode_ok_iff (w : CmdWord) (i : Instr) : decode w = .ok i ↔
    (selectRow.matchesWord w = true ∧ .select (devField w) (flagBit w) = i) ∨
    (setfreqRow.matchesWord w = true ∧ .setfreq (immField w) = i) ∨
    (setmodeRow.matchesWord w = true ∧ .setmode (aField w) = i) ∨
    (xchgRow.matchesWord w = true ∧ .xchg (immField w) = i) ∨
    (statusRow.matchesWord w = true ∧ .status (devField w) = i) ∨
    (cmddataRow.matchesWord w = true ∧ .cmddata (devField w) (flagBit w) = i) := by
  -- Each row fixes the opcode, so on either side the opcode of the word leaves at most one row.
  unfold decode
  split_ifs
  all_goals simp [withReservedClear_ok_iff, selectRow_matches, setfreqRow_matches, setmodeRow_matches,
    xchgRow_matches, statusRow_matches, cmddataRow_matches, *]

/-- The encoder and the decoder are inverse to each other: a word is the packed one exactly when its fields are the
operands and what the command's row asks for. -/
theorem encode_eq_some_iff (i : Instr) (w : CmdWord) : encode i = some w ↔ decode w = .ok i := by
  cases i with
  | select dev a =>
    simp [encode, decode_ok_iff, packWord_eq_iff, aField_eq_flagField_iff, selectRow_matches, and_left_comm, and_assoc,
      and_comm]
  | setfreq hz => simp [encode, decode_ok_iff, packWord_eq_iff, setfreqRow_matches, and_comm]
  | setmode m => simp [encode, decode_ok_iff, packWord_eq_iff, setmodeRow_matches, and_left_comm, and_comm]
  | xchg x => simp [encode, decode_ok_iff, packWord_eq_iff, xchgRow_matches, and_comm]
  | status dev => simp [encode, decode_ok_iff, packWord_eq_iff, statusRow_matches, and_left_comm, and_comm]
  | cmddata dev c =>
    simp [encode, decode_ok_iff, packWord_eq_iff, aField_eq_flagField_iff, cmddataRow_matches, and_left_comm, and_assoc,
      and_comm]
  | bitx0 _ | bitx1 _ | bitx2 _ | bitx3 _ => simp [encode, decode_ok_iff]

/-- Settles O1: the packed word of a command is the one word that decodes to it, and the micro-operations have none. -/
theorem encodeAndDecodeAgree : Obligations.EncodeAndDecodeAgree :=
  ⟨fun i => by cases i <;> rfl, encode_eq_some_iff⟩

/-- Under a row's own opcode, what the row still asks for is that its reserved fields be zero. -/
theorem withReservedClear_of_opField {r : CmdRow} {w : CmdWord} {op : BitVec 8} {p q : Prop} [Decidable p] [Decidable q]
    (hrow : r.matchesWord w = true ↔ p ∧ q ∧ opField w = op) (hop : opField w = op) (i : Instr) :
    withReservedClear r w i = if p ∧ q then .ok i else .error .reservedBits := by
  simp [withReservedClear, hrow, hop]

/-- Settles O2, opcode by opcode. -/
theorem decodeReadsTheFields : Obligations.DecodeReadsTheFields := by
  rintro w _ _ _ _ rfl rfl rfl rfl
  rw [decode, flagBit_eq_aField]
  refine ite_congr rfl (withReservedClear_of_opField (selectRow_matches w) · _) fun _ => ?_
  refine ite_congr rfl (withReservedClear_of_opField (setfreqRow_matches w) · _) fun _ => ?_
  refine ite_congr rfl (withReservedClear_of_opField (setmodeRow_matches w) · _) fun _ => ?_
  refine ite_congr rfl (withReservedClear_of_opField (xchgRow_matches w) · _) fun _ => ?_
  refine ite_congr rfl (withReservedClear_of_opField (statusRow_matches w) · _) fun _ => ?_
  exact ite_congr rfl (withReservedClear_of_opField (cmddataRow_matches w) · _) fun _ => rfl

/-- Settles O3: a word decodes to a command of a row exactly when it matches the row. -/
theorem wordMatchesItsRow : Obligations.WordMatchesItsRow := by
  intro w
  simp [decode_ok_iff, CmdRow.matchesWord, selectRow, setfreqRow, setmodeRow, xchgRow, statusRow, cmddataRow]

/-! The assembler (R70, R71). -/

/-- Settles O57: a word that is emitted encodes a command, and so decodes to it. -/
theorem assemblerEmitsLegalWords : Obligations.AssemblerEmitsLegalWords := by
  intro a w h
  obtain ⟨i, -, hi⟩ := Option.bind_eq_some_iff.1 h
  have hd := (encode_eq_some_iff i w).1 hi
  exact ⟨i, hd, isCommand_of_decode hd⟩

/-- A command form is encoded where its operands are in range, however the range is written. -/
theorem bind_encode_ite {p q : Prop} [Decidable p] [Decidable q] (h : p ↔ q) (i : Instr) :
    (if p then some i else none).bind encode = if q then encode i else none := by
  simp only [h]
  split <;> rfl

/-- Settles O55, form by form: each is the test of its operands' ranges, and then the encoder. -/
theorem assemblerEncodesOrRefuses : Obligations.AssemblerEncodesOrRefuses :=
  ⟨fun _ _ => bind_encode_ite (by omega) _, fun _ => bind_encode_ite (by omega) _,
    fun _ => bind_encode_ite (by omega) _, fun _ => bind_encode_ite (by omega) _,
    fun _ => bind_encode_ite (by omega) _, fun _ _ => bind_encode_ite (by omega) _⟩

theorem assemble_setpolpha (cpol cpha : Nat) : assemble ⟨.setpolpha, [cpol, cpha]⟩ =
    if cpol ≤ 1 ∧ cpha ≤ 1 then assemble ⟨.setmode, [2 * cpol + cpha]⟩ else none := by
  simp only [assemble, expand, Nat.lt_succ_iff]
  split <;> rfl

/-- Settles O56: a pseudo-command and the command that it expands to have one expansion. -/
theorem pseudoCommandsExpand : Obligations.PseudoCommandsExpand := fun _ cpol cpha =>
  ⟨rfl, rfl, rfl, rfl, assemble_setpolpha cpol cpha⟩

/-! The instruction of a step (R60, R69, R145). -/

theorem nextAction_of_exchanging {s : State} (hs : Exchanging s) (hq : quietPort s.inbox = true) :
    nextAction s = .run (selectMicroOp s.mode (currentBit s)) s := by
  obtain ⟨hf, hb⟩ := hs
  match hin : s.inbox with
  | [] | .issue w :: rest => simp [nextAction, noCommand, hf, hb, hin]
  | .pause :: _ | .present _ :: _ => simp [hin, quietPort] at hq

/-- Settles O6: a word decodes to a command, which no micro-operation is, and a quiet port leaves the step to the
exchange. -/
theorem modeSelectsTheMicroOperation : Obligations.ModeSelectsTheMicroOperation := by
  refine ⟨fun _ => ⟨rfl, rfl, rfl, rfl⟩, fun w d => ?_, fun s => nextAction_of_exchanging⟩
  have hne : ∀ i : Instr, i.isCommand = false → decode w ≠ .ok i := fun i hi hd => by
    simp [isCommand_of_decode hd] at hi
  exact ⟨hne _ rfl, hne _ rfl, hne _ rfl, hne _ rfl⟩

/-- A word offered to a block that can take it is taken, and its command runs (R60). -/
theorem nextAction_of_offered {s : State} {w : CmdWord} {rest : List HostMove} {i : Instr} (hf : s.fault = 0#3)
    (hin : s.inbox = .present w :: rest ∨ s.inbox = .issue w :: rest ∧ s.busy = false) (hd : decode w = .ok i) :
    nextAction s = .run i { s with inbox := rest } := by
  obtain hin | ⟨hin, hb⟩ := hin
  · simp [nextAction, hf, hin, takeWord, hd]
  · simp [nextAction, hf, hin, hb, takeWord, hd]

/-- A fault that the instruction of a step takes is the outcome of the step (R183). -/
theorem step_of_run_fault {s u t : State} {i : Instr} {f : FaultName} (ha : nextAction s = .run i u)
    (hx : exec i u = .next t) (hf : t.fault = f.code) : step s = .fault (.raised f (.command i) t) := by
  simp [step, ha, hx, reportFault, hf, faultOfCode_code]

/-- Settles O7: the offered word's command is the instruction of the step, whose fault is reported. -/
theorem stepRunsTheTakenCommand : Obligations.StepRunsTheTakenCommand := by
  intro s w rest i t hf hin hd hx
  have haction := nextAction_of_offered hf hin hd
  exact ⟨step_of_run haction hx, fun f => step_of_run_fault haction hx⟩

end Sys2Proof.Machine
end

section
/-! SUPPORT. The timing calculator (spec 40): its bounds and its monotonicity (R86), the two-stage rounding (R83), the
32-bit arithmetic (R87), and SETFREQ (R80). -/

namespace Sys2Proof.Machine

/-! The ranges of the calculator's values (R81 to R83). -/

/-- A higher frequency has no longer period: from the period `q` of `b`, `(2 * q - 1) * b` is at most two seconds in
nanoseconds, and so is `(2 * q - 1) * a`. -/
theorem period_anti {a b : Nat} (ha : 1 ≤ a) (hab : a ≤ b) : period b ≤ period a := by
  rw [period_eq_div a, Nat.le_div_iff_mul_le (by omega)]
  have hb : period b * (2 * b) ≤ 2000000000 + b := by
    rw [period_eq_div]
    exact Nat.div_mul_le_self ..
  cases hq : period b with
  | zero => omega
  | succ q =>
    rw [hq] at hb
    have hle : (2 * q + 1) * a ≤ (2 * q + 1) * b := Nat.mul_le_mul_left _ hab
    linarith

/-- The clamp at 0 is the subtraction of natural numbers (R82). -/
theorem remainingNs_eq_sub (overhead hz : Nat) : remainingNs overhead hz = period hz - overhead := by
  unfold remainingNs
  split <;> omega

theorem remainingNs_add_overhead_le {overhead hz : Nat} (ho : overhead ≤ 1000000000) (hz1 : 1 ≤ hz) :
    remainingNs overhead hz + overhead ≤ 1000000000 := by
  have hp := period_le hz1
  rw [remainingNs_eq_sub]
  omega

theorem holdTime_anti {a b : Nat} (overhead : Nat) (ha : 1 ≤ a) (hab : a ≤ b) :
    holdTime overhead b ≤ holdTime overhead a := by
  apply roundHold_mono
  rw [remainingNs_eq_sub, remainingNs_eq_sub]
  exact Nat.sub_le_sub_right (period_anti ha hab) overhead

/-- The two roundings as one floor division (R83). -/
theorem roundHold_eq_div (pns : Nat) : roundHold pns = (pns + 1001) / 2000 := by
  unfold roundHold
  omega

/-- Twice the hold time, in nanoseconds, exceeds the remaining time by at most 1001. -/
theorem roundHold_le (pns : Nat) : 2000 * roundHold pns ≤ pns + 1001 := by
  rw [roundHold_eq_div]
  exact Nat.mul_div_le ..

theorem holdTime_add_overhead_le {overhead hz : Nat} (ho : overhead ≤ 1000000000) (hz1 : 1 ≤ hz) :
    2000 * holdTime overhead hz + overhead ≤ 1000001001 := by
  have hp := remainingNs_add_overhead_le ho hz1
  have hr := roundHold_le (remainingNs overhead hz)
  unfold holdTime
  omega

/-- Settles O17: the upper bound is that of the full bit, and at 1 Hz an overhead of 1001 leaves the shortest remaining
time that still rounds to 500 000. -/
theorem holdTimeIsAtMostHalfASecond : Obligations.HoldTimeIsAtMostHalfASecond := by
  intro overhead hz ho1 ho hz1
  have hle : ∀ f, 1 ≤ f → holdTime overhead f ≤ 500000 := fun f hf => by
    have h := holdTime_add_overhead_le ho hf
    omega
  refine ⟨hle hz hz1, fun ho' => le_antisymm (hle 1 le_rfl) ?_⟩
  calc 500000 = roundHold (1000000000 - 1001) := by decide
    _ ≤ roundHold (remainingNs overhead 1) := by
      apply roundHold_mono
      rw [remainingNs_eq_sub]
      exact Nat.sub_le_sub_left ho' _

/-- Settles O18: each function of the calculator is monotone, and so are they in a row. -/
theorem calculatorIsMonotone : Obligations.CalculatorIsMonotone := by
  intro overhead a b ho1 _ ha hab
  have hhold := holdTime_anti overhead ha hab
  exact ⟨period_anti ha hab, hhold, achieved_anti ho1 hhold⟩

/-! The 32-bit calculator (R87). -/

theorem period32_toNat (hz : Data) : (period32 hz).toNat = period hz.toNat := by
  have hsum : 1000000000 + hz.toNat / 2 < 4294967296 := by omega
  simp [period32, period, Nat.shiftRight_eq_div_pow, Nat.mod_eq_of_lt hsum]

theorem remaining32_toNat (overhead hz : Data) :
    (remaining32 overhead hz).toNat = remainingNs overhead.toNat hz.toNat := by
  rw [remainingNs, ← period32_toNat, remaining32, apply_ite BitVec.toNat]
  exact ite_congr rfl (fun h => BitVec.toNat_sub_of_le (Nat.le_of_lt h)) fun _ => rfl

theorem hold32_toNat {overhead hz : Data} (h : remainingNs overhead.toNat hz.toNat + 1 ≤ 1000000000) :
    (hold32 overhead hz).toNat = holdTime overhead.toNat hz.toNat := by
  rw [← remaining32_toNat] at h
  have hplus : (remaining32 overhead hz + 1#32).toNat = (remaining32 overhead hz).toNat + 1 := by
    bv_omega
  have hhalf : ((remaining32 overhead hz).toNat + 1) / 2 + 500 < 4294967296 := by omega
  rw [holdTime, roundHold, ← remaining32_toNat]
  simp [hold32, hplus, Nat.shiftRight_eq_div_pow, Nat.mod_eq_of_lt hhalf]

theorem achieved32_toNat {overhead h : Data} (hsum : 2000 * h.toNat + overhead.toNat ≤ 2000000000) :
    (achieved32 overhead h).toNat = achieved overhead.toNat h.toNat := by
  have hlt : 2000 * h.toNat + overhead.toNat < 4294967296 := by omega
  simp [achieved32, achieved, Nat.mod_eq_of_lt hlt]

/-- Settles O22: each 32-bit function is exact where its intermediate values keep the bounds. -/
theorem thirtyTwoBitCalculatorAgrees : Obligations.ThirtyTwoBitCalculatorAgrees := by
  intro overhead hz ho1 ho hne
  have hz1 : 1 ≤ hz.toNat := Nat.one_le_iff_ne_zero.2 fun h => hne (BitVec.eq_of_toNat_eq h)
  have hremaining : remainingNs overhead.toNat hz.toNat + 1 ≤ 1000000000 := by
    have h := remainingNs_add_overhead_le ho hz1
    omega
  have hsum : 2000 * holdTime overhead.toNat hz.toNat + overhead.toNat ≤ 2000000000 :=
    (holdTime_add_overhead_le ho hz1).trans (by decide)
  have hhold := hold32_toNat hremaining
  refine ⟨by omega, hremaining, hsum, period32_toNat hz, remaining32_toNat overhead hz, hhold, ?_⟩
  rw [← hhold] at hsum ⊢
  exact achieved32_toNat hsum

/-! SETFREQ (R80). -/

theorem execSetfreq_zero {s : State} (hf : s.fault = 0#3) (hb : s.busy = false) :
    execSetfreq 0#32 s = .next (takeFault .freqZero s) := acceptCommand_ready hf hb _

/-- Settles O15: the command is rejected by a busy block, takes its own fault at 0 Hz, and otherwise has its effect. -/
theorem setfreqWritesHoldAndAnswersAchieved : Obligations.SetfreqWritesHoldAndAnswersAchieved := by
  rintro s hz _ _ _ hf rfl rfl rfl
  by_cases hb : s.busy = true
  · rw [if_pos hb]
    exact acceptCommand_busy hf hb _
  · rw [if_neg hb]
    rw [Bool.not_eq_true] at hb
    by_cases hz0 : hz = 0#32
    · rw [if_pos hz0, hz0]
      exact execSetfreq_zero hf hb
    · rw [if_neg hz0]
      exact execSetfreq_of_ne hf hb hz0

/-- Settles O16: the rows are evaluated. -/
theorem calculatorTableRows : Obligations.CalculatorTableRows := by
  unfold Obligations.CalculatorTableRows
  decide

/-! The ceiling of the achieved frequency (R86). -/

theorem achieved_zero (overhead : Nat) : achieved overhead 0 = 1000000000 / overhead := by
  simp [achieved]

/-- Settles O19: a hold of 0 reaches the ceiling, and no other hold exceeds it. -/
theorem achievedStaysBelowTheCeiling : Obligations.AchievedStaysBelowTheCeiling := by
  intro overhead h ho1 _
  exact ⟨achieved_zero overhead ▸ achieved_anti ho1 (Nat.zero_le h), achieved_zero overhead⟩

/-- Refutes O20: at an overhead of 900 000 000 ns a hold of 1 gives 1 Hz, as a hold of 0 does. -/
theorem not_ceilingIsReachedOnlyAtHoldZero : ¬ Obligations.CeilingIsReachedOnlyAtHoldZero := by
  intro h
  have hone : achieved 900000000 1 = 1000000000 / 900000000 := by decide
  exact Nat.one_ne_zero ((h 900000000 1 (by decide) (by decide)).1 hone)

/-- Settles O21: the quotients of two successive numbers differ exactly where the divisor divides the greater one. -/
theorem twoStageRoundingDiffersAt999 : Obligations.TwoStageRoundingDiffersAt999 := by
  intro pns
  rw [roundHold_eq_div]
  omega

end Sys2Proof.Machine
end

section
/-! SUPPORT. The mode selector (spec 41): SETMODE's outcomes (R100, R103 to R105), and the invariant of the block, which
has the clock at idle between commands (R107): construction gives it, and every step keeps it. -/

namespace Sys2Proof.Machine

/-! SETMODE (R100). -/

theorem setmodeBody_of_range {m : BitVec 8} (h : 3 < m.toNat) (s : State) :
    setmodeBody m s = takeFault .modeRange s := if_pos h

theorem setmodeBody_of_disabled {m : BitVec 8} {s : State} (hr : ¬ 3 < m.toNat)
    (he : modeEnabled s.cfg (m.setWidth 2) = false) : setmodeBody m s = takeFault .modeDisabled s := by
  rw [setmodeBody, if_neg hr, if_pos he]

theorem idle_setWidth (m : BitVec 8) : idle (m.setWidth 2) = m.getLsbD 1 := by
  simp [idle]

/-- Settles O23: a busy block rejects the command, the two checks of the operand come in their order, and a mode that
passes them has the command's effect, with no look at `MODE` or at the clock. -/
theorem setmodeDrivesIdleAndSelects : Obligations.SetmodeDrivesIdleAndSelects := by
  intro s m hf
  by_cases hb : s.busy = true
  · rw [if_pos hb]
    exact acceptCommand_busy hf hb _
  · rw [if_neg hb]
    have hx : exec (.setmode m) s = .next (setmodeBody m s) :=
      acceptCommand_ready hf (by simpa using hb) _
    rw [hx]
    by_cases hr : 3 < m.toNat
    · rw [if_pos hr, setmodeBody_of_range hr]
      rfl
    · rw [if_neg hr]
      by_cases he : modeEnabled s.cfg (m.setWidth 2) = false
      · rw [if_pos he, setmodeBody_of_disabled hr he]
        rfl
      · rw [if_neg he, setmodeBody_of_enabled hr (by simpa using he), ← idle_setWidth]
        rfl

/-- SETMODE takes no fault only on a mode that is enabled (R103, R104). -/
theorem modeEnabled_of_setmodeBody {m : BitVec 8} {s : State} (h : ∀ f, setmodeBody m s ≠ takeFault f s) :
    modeEnabled s.cfg (m.setWidth 2) = true := by
  have hr : ¬ 3 < m.toNat := fun hr => h _ (setmodeBody_of_range hr s)
  by_contra he
  exact h _ (setmodeBody_of_disabled hr (by simpa using he))

/-! The invariant of a block that takes commands. -/

/-- While no exchange is in progress, the parts of the invariant about the loop position say nothing. -/
theorem inv_of_ready {s : State} (hr : Ready s) (hacc : s.cfg.Accepted) (hmode : modeEnabled s.cfg s.mode = true)
    (hhold : s.hold.toNat ≤ 500000) (hclk : s.sckLvl = some (idle s.mode))
    (hev : s.trace.all (eventLegal s.cfg.statusWidth) = true) : Inv s where
  accepted := hacc
  notFaulted := hr.1
  modeOk := hmode
  holdBound := hhold
  idleClock := fun _ => hclk
  position := fun hb => by simp [hr.2] at hb
  movingClock := fun hb => by simp [hr.2] at hb
  accumulator := fun hb => by simp [hr.2] at hb
  events := hev

/-- The host's moves do not matter to the invariant. -/
theorem Inv.of_inbox {s u : State} (hs : Inv s) (hu : u = { s with inbox := u.inbox }) : Inv u := by
  rw [hu]
  exact { hs with }

/-- A hold time of a legal frequency fits the register and keeps its bound (R22, R86). -/
theorem hold_of_holdTime_le {c : Config} {hz : Data} (hc : c.Accepted) (h : hz ≠ 0#32) :
    (BitVec.ofNat 32 (holdTime c.overheadNs hz.toNat)).toNat ≤ 500000 := by
  obtain ⟨ho, ho', -⟩ := (accepted_iff c).1 hc
  have hz1 : hz.toNat ≠ 0 := fun h0 => h (BitVec.eq_of_toNat_eq h0)
  obtain ⟨hle, -⟩ := holdTimeIsAtMostHalfASecond c.overheadNs hz.toNat (by omega) ho' (by omega)
  rw [BitVec.toNat_ofNat]
  exact (Nat.mod_le _ _).trans hle

/-! Construction (R200, R201). -/

theorem inv_constructed {c : Config} {m : Mode} (hc : c.Accepted) (hm : modeEnabled c m = true) :
    Inv (constructed c m) := by
  obtain ⟨-, -, -, -, -, -, hfreq⟩ := (accepted_iff c).1 hc
  exact inv_of_ready ⟨rfl, rfl⟩ hc hm (hold_of_holdTime_le hc hfreq) rfl rfl

/-- A disabled reset mode leaves a block with the fault and nothing else written (R201). -/
theorem construct_disabled {c : Config} (h : c.Accepted) (he : modeEnabled c (BitVec.ofNat 2 c.resetMode) = false) :
    construct c = .next (takeFault .modeDisabled (unconstructed c)) := by
  obtain ⟨-, -, -, -, -, hmode, -⟩ := (accepted_iff c).1 h
  obtain ⟨hr, hm⟩ := resetMode_setWidth hmode
  have hset : execSetmode (BitVec.ofNat 8 c.resetMode) (unconstructed c) =
      .next (takeFault .modeDisabled (unconstructed c)) := by
    rw [execSetmode, acceptCommand_ready rfl rfl, setmodeBody_of_disabled hr (by rw [hm]; exact he)]
  unfold construct
  rw [if_neg (not_not.2 h), hset]
  rfl

/-- Settles O53: a block without a fault has an accepted configuration and an enabled reset mode, so it is the block of
R31's values. -/
theorem constructedBlocksMeetTheInvariants : Obligations.ConstructedBlocksMeetTheInvariants := by
  intro c s h hf
  have hc : c.Accepted := by
    by_contra hc
    rw [construct_refused hc] at h
    cases h
  cases he : modeEnabled c (BitVec.ofNat 2 c.resetMode) with
  | false =>
    rw [construct_disabled hc he] at h
    cases h
    exact absurd hf (FaultName.code_ne_zero .modeDisabled)
  | true =>
    rw [construct_enabled hc he] at h
    cases h
    exact ⟨inv_constructed hc he, ⟨rfl, rfl⟩, rfl⟩

/-! The waveforms' clock, delays and accumulator (R126, R128, R144). -/

/-- A whole waveform begins and ends with the clock at idle (R128). -/
theorem clockAfter_liveCalls_waveform (h : Data) (m : Mode) (d : Level) :
    clockAfter (idle m) (liveCalls h (waveform m d)) = idle m := by
  by_cases hh : h = 0#32
  · rw [hh, liveCalls_zero]
    revert m d
    decide
  · rw [liveCalls_of_ne hh]
    revert m d
    decide

theorem clockAfter_take_succ {calls : List Call} {n : Nat} {c : Call} (hc : calls[n]? = some c) (v : Level) :
    clockAfter v (calls.take (n + 1)) = clockAfter (clockAfter v (calls.take n)) [c] := by
  rw [List.take_add_one, hc, Option.toList_some, clockAfter_snoc]

theorem performCall_sckLvl {s : State} {v : Level} (h : s.sckLvl = some v) (c : Call) :
    (performCall c s).sckLvl = some (clockAfter v [c]) := by
  cases c with
  | setClk u => rfl
  | setMosi _ | sample | hold => exact h

/-- A `Hold()` that is made has a hold time (R120). -/
theorem hold_ne_zero_of_mem {h : Data} {calls : List Call} (hm : Call.hold ∈ liveCalls h calls) : h ≠ 0#32 := by
  rintro rfl
  simp [liveCalls_zero] at hm

/-- A call that a waveform makes appends an event that keeps the bounds of R41: its delays are at least 1. -/
theorem eventLegal_callEvent {c : Call} {s : State} {calls : List Call} (hc : c ∈ liveCalls s.hold calls)
    (statusWidth : Nat) : eventLegal statusWidth (callEvent c s) = true := by
  cases c with
  | hold =>
    have hne : s.hold.toNat ≠ 0 := fun h0 => hold_ne_zero_of_mem hc (BitVec.eq_of_toNat_eq h0)
    exact decide_eq_true (Nat.one_le_iff_ne_zero.2 hne)
  | setClk _ | setMosi _ | sample => rfl

/-- A bit shifted in doubles the accumulator's bound. -/
theorem shiftIn_lt {acc : Data} {k : Nat} (b : Level) (h : acc.toNat < 2 ^ k) (hk : k ≤ 31) :
    (shiftIn acc b).toNat < 2 ^ (k + 1) := by
  have hroom : 2 ^ k ≤ 2 ^ 31 := Nat.pow_le_pow_right (by decide) hk
  have hb := b.toNat_le
  rw [shiftIn_toNat acc b (by omega), pow_succ]
  omega

/-! The invariant within an exchange. -/

/-- The invariant of a block with an exchange in progress, but for the bound on the calls made: it holds also between a
waveform's last call and the end of the bit, which R145 puts into one step. -/
structure WithinBit (s : State) : Prop where
  accepted : s.cfg.Accepted
  exchanging : Exchanging s
  modeOk : modeEnabled s.cfg s.mode = true
  holdBound : s.hold.toNat ≤ 500000
  bitPosition : s.xi < width s.cfg
  clock : s.sckLvl = some (clockAfter (idle s.mode) ((currentCalls s).take s.xstep))
  accumulator : s.xacc.toNat < 2 ^ (width s.cfg - 1 - s.xi)
  events : s.trace.all (eventLegal s.cfg.statusWidth) = true

theorem Inv.withinBit {s : State} (hs : Inv s) (hb : s.busy = true) : WithinBit s :=
  ⟨hs.accepted, ⟨hs.notFaulted, hb⟩, hs.modeOk, hs.holdBound, (hs.position hb).1, hs.movingClock hb,
    hs.accumulator hb, hs.events⟩

theorem WithinBit.inv {s : State} (hs : WithinBit s) (hx : s.xstep < (currentCalls s).length) : Inv s where
  accepted := hs.accepted
  notFaulted := hs.exchanging.1
  modeOk := hs.modeOk
  holdBound := hs.holdBound
  idleClock := fun hb => by simp [hs.exchanging.2] at hb
  position := fun _ => ⟨hs.bitPosition, hx⟩
  movingClock := fun _ => hs.clock
  accumulator := fun _ => hs.accumulator
  events := hs.events

/-- At the first call of a waveform, one is still to make. -/
theorem WithinBit.inv_of_noCallMade {s : State} (hs : WithinBit s) (hx : s.xstep = 0) : Inv s := by
  apply hs.inv
  rw [hx, currentCalls_length, callsPerBit]
  split <;> decide

/-- The start step begins with the clock at idle, at the highest bit, with an empty accumulator (R145). -/
theorem inv_startExchange {s : State} (hs : Inv s) (hb : s.busy = false) (x : Data) : Inv (startExchange x s) := by
  have hw := width_bounds hs.accepted
  have hstart : WithinBit (startExchange x s) :=
    { accepted := hs.accepted
      exchanging := ⟨hs.notFaulted, rfl⟩
      modeOk := hs.modeOk
      holdBound := hs.holdBound
      bitPosition := show width s.cfg - 1 < width s.cfg by omega
      clock := hs.idleClock hb
      accumulator := Nat.two_pow_pos _
      events := hs.events }
  exact hstart.inv_of_noCallMade rfl

/-- A waveform's call and the count of it leave the calls of the waveform. -/
theorem currentCalls_performCall (c : Call) (s : State) (n : Nat) :
    currentCalls { performCall c s with xstep := n } = currentCalls s := by
  simp [currentCalls, currentBit]

/-- A call of the running waveform, made and counted. -/
theorem WithinBit.performCall_next {s : State} {c : Call} (hs : WithinBit s)
    (hc : (currentCalls s)[s.xstep]? = some c) : WithinBit { performCall c s with xstep := s.xstep + 1 } where
  accepted := by simpa using hs.accepted
  exchanging := by simpa using hs.exchanging
  modeOk := by simpa using hs.modeOk
  holdBound := by simpa using hs.holdBound
  bitPosition := by simpa using hs.bitPosition
  clock := by
    rw [currentCalls_performCall, performCall_mode, clockAfter_take_succ hc]
    exact performCall_sckLvl hs.clock c
  accumulator := by simpa using hs.accumulator
  events := by
    have hlegal := eventLegal_callEvent (s := s) (List.mem_of_getElem? hc) s.cfg.statusWidth
    simpa [hlegal] using hs.events

/-- The end of a bit: the exchange ends with the clock at idle, or the next waveform begins there (R107, R145). -/
theorem WithinBit.inv_finishBit {s : State} (hs : WithinBit s) (hx : s.xstep = (currentCalls s).length) :
    Inv (finishBit s) := by
  obtain ⟨hacc, ⟨hf, hb⟩, hmode, hhold, hxi, hclk, hxacc, hev⟩ := hs
  have hidle : s.sckLvl = some (idle s.mode) := by
    rw [hclk, hx, List.take_length, currentCalls, clockAfter_liveCalls_waveform]
  by_cases h : s.xi = 0
  · rw [finishBit_last h]
    exact inv_of_ready ⟨hf, rfl⟩ hacc hmode hhold hidle hev
  · have hw := width_bounds hacc
    have hshift := shiftIn_lt s.xsmp hxacc (by omega)
    have hexp : width s.cfg - 1 - s.xi + 1 = width s.cfg - 1 - (s.xi - 1) := by omega
    rw [finishBit_more h]
    refine WithinBit.inv_of_noCallMade ⟨hacc, ⟨hf, hb⟩, hmode, hhold, ?_, hidle, hexp ▸ hshift, hev⟩ rfl
    show s.xi - 1 < width s.cfg
    omega

/-! What an instruction and a step keep. -/

/-- A command of a ready block that takes no fault keeps the invariant. -/
theorem inv_commandBody {s : State} (hs : Inv s) (hb : s.busy = false) (i : Instr)
    (h : ∀ f, commandBody i s ≠ takeFault f s) : Inv (commandBody i s) := by
  have heffect : commandBody i s = commandEffect i s :=
    (commandBody_cases i s).resolve_left fun ⟨f, htaken⟩ => h f htaken
  have hclk := hs.idleClock hb
  cases i with
  | setmode m =>
    have hm := modeEnabled_of_setmodeBody h
    rw [heffect]
    exact inv_of_ready ⟨hs.notFaulted, hb⟩ hs.accepted hm hs.holdBound rfl
      (by simpa [commandEffect, eventLegal] using hs.events)
  | setfreq hz =>
    have hz0 : hz ≠ 0#32 := by
      rintro rfl
      exact h .freqZero rfl
    rw [heffect]
    exact inv_of_ready ⟨hs.notFaulted, hb⟩ hs.accepted hs.modeOk (hold_of_holdTime_le hs.accepted hz0) hclk hs.events
  | xchg x => exact inv_startExchange hs hb x
  | select _ _ | status _ | cmddata _ _ =>
    rw [heffect]
    refine inv_of_ready ⟨hs.notFaulted, hb⟩ hs.accepted hs.modeOk hs.holdBound hclk ?_
    simpa [commandEffect, selectBody, statusBody, statusNow, eventLegal, limitFlags_lt] using hs.events
  | bitx0 _ | bitx1 _ | bitx2 _ | bitx3 _ => exact hs

/-- A micro-step of the running waveform keeps the invariant (R145). -/
theorem inv_advanceWith {s : State} {c : Call} (hs : Inv s) (hb : s.busy = true)
    (hc : (currentCalls s)[s.xstep]? = some c) :
    Inv (advanceWith c (s.xstep + 1 == (currentCalls s).length) s) := by
  have hcall := (hs.withinBit hb).performCall_next hc
  have hlen := (hs.position hb).2
  obtain ⟨hlast, heq⟩ | ⟨hlast, heq⟩ := advanceWith_cases c (s.xstep + 1 == (currentCalls s).length) s
  · rw [heq]
    refine hcall.inv_finishBit ?_
    rw [currentCalls_performCall]
    exact beq_iff_eq.1 hlast
  · rw [heq]
    refine hcall.inv ?_
    rw [currentCalls_performCall]
    exact lt_of_le_of_ne hlen (beq_eq_false_iff_ne.1 hlast)

/-- An instruction that a step can run, a command or the micro-operation of the exchange in progress, keeps the
invariant when it takes no fault. -/
theorem inv_of_exec {i : Instr} {s t : State} (hs : Inv s)
    (hi : i.isCommand = true ∨ i = selectMicroOp s.mode (currentBit s)) (hx : exec i s = .next t)
    (ht : faultOfCode t.fault = none) : Inv t := by
  obtain hi | rfl := hi
  · rw [exec_command hi] at hx
    obtain ⟨-, ⟨-, rfl⟩ | ⟨hb, rfl⟩⟩ := acceptCommand_next_cases hx
    · simp [faultOfCode_code] at ht
    · exact inv_commandBody hs hb i fun f htaken => by simp [htaken, faultOfCode_code] at ht
  · rw [exec_selectMicroOp] at hx
    obtain ⟨-, hb, c, hc, rfl⟩ := microStep_next_cases hx
    exact inv_advanceWith hs hb hc

/-- Settles O47: a waiting step changes the host's moves only, and a step that runs an instruction keeps the invariant
as the instruction does. -/
theorem stepKeepsTheInvariant : Obligations.StepKeepsTheInvariant := by
  intro s t hs h
  obtain hw | ⟨i, u, ha, hx, hnone⟩ := step_next_cases h
  · obtain ⟨-, -, ht⟩ := nextAction_start.1 t hw
    exact hs.of_inbox ht
  · obtain ⟨-, hu, hi⟩ := nextAction_start.2.2 i u ha
    refine inv_of_exec (hs.of_inbox hu) ?_ hx hnone
    obtain ⟨-, hmicro⟩ | ⟨w, -, hd⟩ := hi
    · rw [hu]
      exact .inr hmicro
    · exact .inl (isCommand_of_decode hd)

end Sys2Proof.Machine
end

section
/-! SUPPORT. Bit exchange (spec 42): what one micro-operation does (R120, R145), what the micro-operations of a bit do
together, and the shape of a bit (R128). The four waveforms are followed as the one parameterised form of R125. -/

namespace Sys2Proof.Machine

/-! One micro-operation (R120, R145). -/

/-- Each micro-operation is the micro-step of its waveform (R121 to R124), of the length that R128 gives. -/
theorem microOp_of_mem {d : Level} {p : Instr × List Call}
    (hp : p ∈ [(Instr.bitx0 d, bitx0Calls d), (Instr.bitx1 d, bitx1Calls d), (Instr.bitx2 d, bitx2Calls d),
      (Instr.bitx3 d, bitx3Calls d)]) (s : State) :
    exec p.1 s = microStep p.2 s ∧ (liveCalls s.hold p.2).length = callsPerBit s.hold := by
  simp only [List.mem_cons, List.not_mem_nil, or_false] at hp
  rcases hp with rfl | rfl | rfl | rfl
  · exact ⟨rfl, liveCalls_waveform_length s.hold 0#2 d⟩
  · exact ⟨rfl, liveCalls_waveform_length s.hold 1#2 d⟩
  · exact ⟨rfl, liveCalls_waveform_length s.hold 2#2 d⟩
  · exact ⟨rfl, liveCalls_waveform_length s.hold 3#2 d⟩

/-- Outside an exchange, or past the last call, there is no call to make (log 12). -/
theorem microStep_refused {calls : List Call} {s : State} (hf : s.fault = 0#3)
    (h : s.busy = false ∨ (liveCalls s.hold calls).length ≤ s.xstep) :
    microStep calls s = .refused .outsideExchange := by
  obtain hb | hx := h
  · simp [microStep, hf, hb]
  · simp [microStep, hf, List.getElem?_eq_none hx]

theorem advanceWith_beq (c : Call) (a b : Nat) (s : State) :
    advanceWith c (a == b) s =
      if a = b then finishBit { performCall c s with xstep := s.xstep + 1 }
      else { performCall c s with xstep := s.xstep + 1 } := by
  simp only [advanceWith, beq_iff_eq]

/-- Settles O29: a micro-operation is the micro-step of its waveform, which has a call exactly below its length. -/
theorem microOperationMakesTheCountedCall : Obligations.MicroOperationMakesTheCountedCall := by
  intro s d hf p hp
  obtain ⟨hexec, hlen⟩ := microOp_of_mem hp s
  constructor
  · intro hb hx
    obtain ⟨c, hc⟩ : ∃ c, (liveCalls s.hold p.2)[s.xstep]? = some c :=
      ⟨_, List.getElem?_eq_getElem (hlen ▸ hx)⟩
    refine ⟨c, hc, ?_⟩
    rw [hexec, microStep_of_call hf hb hc, hlen, advanceWith_beq]
    rfl
  · intro h
    rw [hexec]
    exact microStep_refused hf (hlen ▸ h)

/-! The micro-operations of one bit (R145). -/

/-- The calls still to make of a waveform, one micro-operation each, and then the end of the bit. -/
theorem execTimes_calls {i : Instr} {made todo : List Call} {s : State} (hi : i.isCommand = false)
    (hs : Exchanging s) (hcalls : liveCalls s.hold (microCalls i) = made ++ todo) (hx : s.xstep = made.length)
    (hne : todo ≠ []) :
    execTimes i todo.length s = .next (finishBit { runCalls todo s with xstep := (made ++ todo).length }) := by
  induction todo generalizing made s with
  | nil => exact absurd rfl hne
  | cons c todo ih =>
    have hexec : exec i s = .next (advanceWith c (s.xstep + 1 == (made ++ c :: todo).length) s) := by
      rw [exec_micro hi, microStep_of_call (c := c) hs.1 hs.2 (by simp [hcalls, hx]), hcalls]
    rw [List.length_cons, execTimes, hexec]
    cases todo with
    | nil => simp [execTimes, hx, advanceWith]
    | cons e todo =>
      have hlast : (s.xstep + 1 == (made ++ c :: e :: todo).length) = false := by simp [hx]
      have hrest := ih (made := made ++ [c]) (s := { performCall c s with xstep := s.xstep + 1 }) (by simpa using hs)
        (by simpa using hcalls) (by simp [hx]) (by simp)
      rw [runCalls_xstep, List.append_assoc] at hrest
      rw [hlast]
      exact hrest

/-! The waveforms in the one form of R125. -/

theorem waveform_eq_bitxCalls (m : Mode) (d : Level) : waveform m d = bitxCalls (cpol m) (cpha m) d := by
  revert m d
  decide

/-- Settles O30: R125's form, its two phases in the other order. -/
theorem waveformsAreOneParameterisedForm : Obligations.WaveformsAreOneParameterisedForm := by
  intro m d
  rw [waveform_eq_bitxCalls, bitxCalls, cpha]
  cases m.getLsbD 0 <;> rfl

theorem microCalls_selectMicroOp (m : Mode) (d : Level) :
    microCalls (selectMicroOp m d) = bitxCalls (idle m) (cpha m) d := by
  revert m d
  decide

theorem liveCalls_bitxCalls_length (h : Data) (pol : Level) (pha : Bool) (d : Level) :
    (liveCalls h (bitxCalls pol pha d)).length = callsPerBit h := by
  by_cases hh : h = 0#32
  · rw [hh, liveCalls_zero, callsPerBit, if_pos rfl]
    cases pha <;> rfl
  · rw [liveCalls_of_ne hh, callsPerBit, if_neg hh]
    cases pha <;> rfl

/-! The events of a bit (R126, R128). -/

/-- The events of a `Hold()` (R120, R126). -/
def holdEvents (h : Data) : List Event := if h = 0#32 then [] else [.delay h.toNat]

theorem holdEvents_zero : holdEvents 0#32 = [] := rfl

theorem holdEvents_of_ne {h : Data} (hh : h ≠ 0#32) : holdEvents h = [.delay h.toNat] := if_neg hh

/-- The events of a bit before its sampling edge (R125). -/
def eventsBeforeEdge (pol : Level) (pha : Bool) (d : Level) (h : Data) : List Event :=
  if pha then [.sck (!pol), .mosi d] ++ holdEvents h else [.mosi d]

/-- The level of the sampling edge (R128). -/
def samplingLevel (pol : Level) (pha : Bool) : Level := if pha then pol else !pol

/-- The events of a bit after its sample (R125). -/
def eventsAfterSample (pol : Level) (pha : Bool) (h : Data) : List Event :=
  if pha then holdEvents h else holdEvents h ++ [.sck pol] ++ holdEvents h

/-- The events of a bit whose sample is `v`. -/
def waveformEvents (pol : Level) (pha : Bool) (d v : Level) (h : Data) : List Event :=
  eventsBeforeEdge pol pha d h ++ [.sck (samplingLevel pol pha), .sample v] ++ eventsAfterSample pol pha h

theorem waveformEvents_zero (pol : Level) (pha : Bool) (d v : Level) :
    waveformEvents pol pha d v 0#32 =
      if pha then [.sck (!pol), .mosi d, .sck pol, .sample v] else [.mosi d, .sck (!pol), .sample v, .sck pol] := by
  cases pha <;> rfl

theorem waveformEvents_of_ne {h : Data} (hh : h ≠ 0#32) (pol : Level) (pha : Bool) (d v : Level) :
    waveformEvents pol pha d v h =
      if pha then [.sck (!pol), .mosi d, .delay h.toNat, .sck pol, .sample v, .delay h.toNat]
      else [.mosi d, .sck (!pol), .sample v, .delay h.toNat, .sck pol, .delay h.toNat] := by
  rw [waveformEvents, eventsBeforeEdge, eventsAfterSample, holdEvents_of_ne hh]
  cases pha <;> rfl

/-- The level that the `Sample()` of a bit answers, right after its sampling edge. -/
def bitSample (pol : Level) (pha : Bool) (d : Level) (s : State) : Level :=
  drawSample s.cfg.cap.sample s.draws (some d)
    (s.trace ++ (eventsBeforeEdge pol pha d s.hold ++ [.sck (samplingLevel pol pha)]))

/-- The block after the calls of a bit: its events, the levels and the sample that they leave. -/
def afterWaveform (pol : Level) (pha : Bool) (d : Level) (s : State) : State :=
  { s with
    xstep := callsPerBit s.hold, xsmp := bitSample pol pha d s, draws := s.draws + 1
    sckLvl := some pol, mosiLvl := some d
    trace := s.trace ++ waveformEvents pol pha d (bitSample pol pha d s) s.hold }

/-- The calls of a waveform, made in order at either hold time and in either phase. -/
theorem runCalls_bitxCalls (pol : Level) (pha : Bool) (d : Level) (s : State) :
    { runCalls (liveCalls s.hold (bitxCalls pol pha d)) s with xstep := callsPerBit s.hold } =
      afterWaveform pol pha d s := by
  by_cases h0 : s.hold = 0#32 <;> cases pha <;>
    simp [bitxCalls, liveCalls, h0, performCall, setMosi, setClk, delayCall, sampleCall, sampleNow, appendEvent,
      afterWaveform, bitSample, waveformEvents, eventsBeforeEdge, samplingLevel, eventsAfterSample, holdEvents]

/-- The micro-operations of one bit run its whole waveform and end the bit. -/
theorem execTimes_bitxCalls {i : Instr} {pol : Level} {pha : Bool} {d : Level} {s : State}
    (hi : i.isCommand = false) (hcalls : microCalls i = bitxCalls pol pha d) (hs : Exchanging s) (hx : s.xstep = 0) :
    execTimes i (callsPerBit s.hold) s = .next (finishBit (afterWaveform pol pha d s)) := by
  have hlen := liveCalls_bitxCalls_length s.hold pol pha d
  have hne : liveCalls s.hold (bitxCalls pol pha d) ≠ [] := by
    apply List.ne_nil_of_length_pos
    rw [hlen, callsPerBit]
    split <;> decide
  have hrun := execTimes_calls (made := []) (todo := liveCalls s.hold (bitxCalls pol pha d)) hi hs
    (by rw [hcalls, List.nil_append]) hx hne
  rwa [List.nil_append, hlen, runCalls_bitxCalls] at hrun

/-! The waveforms of the two phases (R121 to R124). -/

/-- A waveform that drives its data before the first edge (R121, R123). -/
theorem execTimes_phaseZero {i : Instr} {pol d v : Level} {s : State} (hi : i.isCommand = false)
    (hcalls : microCalls i = bitxCalls pol false d) (hs : Exchanging s) (hx : s.xstep = 0)
    (hv : v = drawSample s.cfg.cap.sample s.draws (some d) (s.trace ++ [.mosi d, .sck (!pol)])) :
    (s.hold = 0#32 → execTimes i 4 s = .next (finishBit { s with
      xstep := 4, xsmp := v, draws := s.draws + 1, sckLvl := some pol, mosiLvl := some d
      trace := s.trace ++ [.mosi d, .sck (!pol), .sample v, .sck pol] })) ∧
    (s.hold ≠ 0#32 → execTimes i 6 s = .next (finishBit { s with
      xstep := 6, xsmp := v, draws := s.draws + 1, sckLvl := some pol, mosiLvl := some d
      trace := s.trace ++ [.mosi d, .sck (!pol), .sample v, .delay s.hold.toNat, .sck pol,
        .delay s.hold.toNat] })) := by
  have hrun := execTimes_bitxCalls hi hcalls hs hx
  obtain rfl : v = bitSample pol false d s := hv
  constructor <;> intro h
  · simpa [afterWaveform, callsPerBit, h, waveformEvents_zero] using hrun
  · simpa [afterWaveform, callsPerBit, h, waveformEvents_of_ne h] using hrun

/-- A waveform that drives its data after the first edge (R122, R124). -/
theorem execTimes_phaseOne {i : Instr} {pol d v u : Level} {s : State} (hi : i.isCommand = false)
    (hcalls : microCalls i = bitxCalls pol true d) (hs : Exchanging s) (hx : s.xstep = 0)
    (hv : v = drawSample s.cfg.cap.sample s.draws (some d) (s.trace ++ [.sck (!pol), .mosi d, .sck pol]))
    (hu : u = drawSample s.cfg.cap.sample s.draws (some d)
      (s.trace ++ [.sck (!pol), .mosi d, .delay s.hold.toNat, .sck pol])) :
    (s.hold = 0#32 → execTimes i 4 s = .next (finishBit { s with
      xstep := 4, xsmp := v, draws := s.draws + 1, sckLvl := some pol, mosiLvl := some d
      trace := s.trace ++ [.sck (!pol), .mosi d, .sck pol, .sample v] })) ∧
    (s.hold ≠ 0#32 → execTimes i 6 s = .next (finishBit { s with
      xstep := 6, xsmp := u, draws := s.draws + 1, sckLvl := some pol, mosiLvl := some d
      trace := s.trace ++ [.sck (!pol), .mosi d, .delay s.hold.toNat, .sck pol, .sample u,
        .delay s.hold.toNat] })) := by
  have hrun := execTimes_bitxCalls hi hcalls hs hx
  constructor <;> intro h
  · obtain rfl : v = bitSample pol true d s := by
      simpa [bitSample, eventsBeforeEdge, samplingLevel, h, holdEvents_zero] using hv
    simpa [afterWaveform, callsPerBit, h, waveformEvents_zero] using hrun
  · obtain rfl : u = bitSample pol true d s := by
      simpa [bitSample, eventsBeforeEdge, samplingLevel, holdEvents_of_ne h] using hu
    simpa [afterWaveform, callsPerBit, h, waveformEvents_of_ne h] using hrun

/-- Settles O25: phase 0 at idle level 0. -/
theorem bitx0MakesItsWaveform : Obligations.Bitx0MakesItsWaveform := fun _ _ _ hs hx hv =>
  execTimes_phaseZero (pol := false) rfl rfl hs hx hv

/-- Settles O26: phase 1 at idle level 0. -/
theorem bitx1MakesItsWaveform : Obligations.Bitx1MakesItsWaveform := fun _ _ _ _ hs hx hv hu =>
  execTimes_phaseOne (pol := false) rfl rfl hs hx hv hu

/-- Settles O27: phase 0 at idle level 1. -/
theorem bitx2MakesItsWaveform : Obligations.Bitx2MakesItsWaveform := fun _ _ _ hs hx hv =>
  execTimes_phaseZero (pol := true) rfl rfl hs hx hv

/-- Settles O28: phase 1 at idle level 1. -/
theorem bitx3MakesItsWaveform : Obligations.Bitx3MakesItsWaveform := fun _ _ _ _ hs hx hv hu =>
  execTimes_phaseOne (pol := true) rfl rfl hs hx hv hu

/-! The shape of a bit (R128). -/

theorem mosiOf_holdEvents (h : Data) : (holdEvents h).filterMap mosiOf = [] := by
  unfold holdEvents
  split <;> rfl

/-- No data is driven after the sample (R128). -/
theorem mosiOf_eventsAfterSample (pol : Level) (pha : Bool) (h : Data) :
    (eventsAfterSample pol pha h).filterMap mosiOf = [] := by
  cases pha
  · change (holdEvents h ++ [Event.sck pol] ++ holdEvents h).filterMap mosiOf = []
    rw [List.filterMap_append, List.filterMap_append, mosiOf_holdEvents]
    rfl
  · exact mosiOf_holdEvents h

/-- R128 (a) to (d), and the first edge with its data (f), read off the events of a bit. -/
theorem waveformEvents_shape (pol : Level) (pha : Bool) (d v : Level) (h : Data) :
    (waveformEvents pol pha d v h).filterMap sckOf = [!pol, pol] ∧
    (waveformEvents pol pha d v h).filterMap mosiOf = [d] ∧
    samplesOf (waveformEvents pol pha d v h) = [v] ∧
    (waveformEvents pol pha d v h).filterMap delayOf = (if h = 0#32 then [] else [h.toNat, h.toNat]) ∧
    (waveformEvents pol pha d v h).length = (if h = 0#32 then 4 else 6) ∧
    (waveformEvents pol pha d v h).take 2 = (if pha then [.sck (!pol), .mosi d] else [.mosi d, .sck (!pol)]) := by
  by_cases hh : h = 0#32
  · subst hh
    simp only [waveformEvents_zero, if_true]
    cases pha <;> exact ⟨rfl, rfl, rfl, rfl, rfl, rfl⟩
  · simp only [waveformEvents_of_ne hh, if_neg hh]
    cases pha <;> exact ⟨rfl, rfl, rfl, rfl, rfl, rfl⟩

/-- Settles O31: the micro-operations of a bit append the events of its waveform, which have the shape. -/
theorem shapeOfEveryBit : Obligations.ShapeOfEveryBit := by
  intro s m d hs hx
  have hrun := execTimes_bitxCalls (selectMicroOp_isCommand m d) (microCalls_selectMicroOp m d) hs hx
  obtain ⟨hsck, hmosi, hsample, hdelay, hlength, htake⟩ :=
    waveformEvents_shape (idle m) (cpha m) d (bitSample (idle m) (cpha m) d s) s.hold
  exact ⟨_, waveformEvents (idle m) (cpha m) d (bitSample (idle m) (cpha m) d s) s.hold,
    eventsBeforeEdge (idle m) (cpha m) d s.hold, eventsAfterSample (idle m) (cpha m) s.hold, _, hrun,
    finishBit_trace _, hsck, hmosi, hsample, hdelay, hlength, rfl, mosiOf_eventsAfterSample _ _ _, htake,
    finishBit_sckLvl _⟩

end Sys2Proof.Machine
end

section
/-! SUPPORT. Word exchange (spec 43): the start step (R145), the micro-operation of a step, what the bits of an exchange
append and answer (R144, R146 to R148), the whole-command form (R140), and the fixed-width variant (R143). -/

namespace Sys2Proof.Machine

/-! The start step (R145, R191). -/

/-- Settles O32, by whether an exchange is in progress. -/
theorem xchgStartsTheExchange : Obligations.XchgStartsTheExchange := by
  intro s x hf
  rw [exec_command rfl]
  by_cases hb : s.busy = true
  · rw [if_pos hb]
    exact acceptCommand_busy hf hb _
  · rw [if_neg hb]
    exact acceptCommand_ready hf (eq_false_of_ne_true hb) _

/-! The micro-operation of a step (R69, R145). -/

/-- A micro-operation takes no fault, so the step that runs it answers what it answers. -/
theorem step_of_run_micro {s u : State} {i : Instr} (ha : nextAction s = .run i u) (hi : i.isCommand = false)
    (hf : u.fault = 0#3) : step s = exec i u := by
  cases hx : exec i u with
  | next t =>
    rw [exec_micro hi] at hx
    obtain ⟨-, -, c, -, rfl⟩ := microStep_next_cases hx
    exact step_of_run ha (by rw [exec_micro hi, hx]) (by simpa using hf)
  | fault r => exact absurd hx (exec_ne_fault hf r)
  | refused r => simp [step, ha, hx, reportFault]

theorem nextAction_of_pause {s : State} {rest : List HostMove} (hs : Exchanging s) (hin : s.inbox = .pause :: rest) :
    nextAction s = .run (selectMicroOp s.mode (currentBit s)) { s with inbox := rest } := by
  obtain ⟨hf, hb⟩ := hs
  simp [nextAction, noCommand, hf, hb, hin, currentBit]

/-- Settles O8: a quiet port and a pause both leave the step to the exchange's micro-operation. -/
theorem stepRunsTheNextMicroOperation : Obligations.StepRunsTheNextMicroOperation := fun _ hs =>
  ⟨fun hq => step_of_run_micro (nextAction_of_exchanging hs hq) (selectMicroOp_isCommand _ _) hs.1,
    fun _ hin => step_of_run_micro (nextAction_of_pause hs hin) (selectMicroOp_isCommand _ _) hs.1⟩

/-! The waveform of one bit, in the form of R125. -/

/-- The level that the `Sample()` of the current bit answers. -/
def currentSample (s : State) : Level := bitSample (idle s.mode) (cpha s.mode) (currentBit s) s

theorem runCalls_waveform (d : Level) (s : State) :
    runCalls (liveCalls s.hold (waveform s.mode d)) s =
      { afterWaveform (idle s.mode) (cpha s.mode) d s with xstep := s.xstep } := by
  obtain ⟨-, -, -, -, -, -, -, -, hxstep, -⟩ := runCalls_frame (liveCalls s.hold (waveform s.mode d)) s
  rw [← runCalls_bitxCalls, idle, ← cpol, ← waveform_eq_bitxCalls, ← hxstep]

/-- The current bit, whole: its waveform, and then the end of the bit. -/
theorem afterBit_eq (s : State) :
    afterBit s = finishBit (afterWaveform (idle s.mode) (cpha s.mode) (currentBit s) s) := by
  rw [afterBit, currentCalls_length, currentCalls, runCalls_waveform]
  rfl

theorem callEvents_currentCalls (s : State) :
    callEvents (currentCalls s) s =
      waveformEvents (idle s.mode) (cpha s.mode) (currentBit s) (currentSample s) s.hold := by
  apply List.append_cancel_left (as := s.trace)
  rw [← runCalls_trace, currentCalls, runCalls_waveform]
  rfl

/-- The bit at `XI` = 0 ends the exchange with its response. -/
theorem afterBit_last {s : State} (h : s.xi = 0) :
    (afterBit s).busy = false ∧
    (afterBit s).responses = s.responses ++ [.value (shiftIn s.xacc (currentSample s))] := by
  rw [afterBit_eq, finishBit_last (by exact h)]
  exact ⟨rfl, rfl⟩

/-- Every other bit leaves its sample in the accumulator. -/
theorem afterBit_more {s : State} (h : s.xi ≠ 0) :
    (afterBit s).xacc = shiftIn s.xacc (currentSample s) ∧ (afterBit s).responses = s.responses := by
  rw [afterBit_eq, finishBit_more (by exact h)]
  exact ⟨rfl, rfl⟩

/-- The events that an exchange of `x` appends. -/
def exchangeEvents (x : Data) (rest : List HostMove) (s : State) : List Event :=
  bitEvents (width s.cfg) (startExchange x { s with inbox := rest })

/-- The block after an exchange of `x`. -/
def exchangeEnd (x : Data) (rest : List HostMove) (s : State) : State :=
  afterBit^[width s.cfg] (startExchange x { s with inbox := rest })

theorem runSteps_exchangeEnd {x : Data} {rest : List HostMove} {s : State} (h : ExchangeAhead x rest s) :
    runSteps (exchangeSteps s) s = .next (exchangeEnd x rest s) := runSteps_exchange h

theorem exchangeEnd_trace (x : Data) (rest : List HostMove) (s : State) :
    (exchangeEnd x rest s).trace = s.trace ++ exchangeEvents x rest s := iterate_afterBit_trace _ _

/-! The counts of events and of delay (R146). -/

/-- The shape of one bit (R128), counted over `n` bits. -/
theorem bitEvents_counts (n : Nat) (s : State) :
    ((bitEvents n s).filterMap mosiOf).length = n ∧ (samplesOf (bitEvents n s)).length = n ∧
    ((bitEvents n s).filterMap sckOf).length = 2 * n ∧
    (bitEvents n s).filterMap delayOf = (if s.hold = 0#32 then [] else List.replicate (2 * n) s.hold.toNat) ∧
    (bitEvents n s).length = (if s.hold = 0#32 then 4 else 6) * n := by
  induction n generalizing s with
  | zero => simp [bitEvents, samplesOf]
  | succ n ih =>
    obtain ⟨hmosi, hsample, hsck, hdelay, hlength⟩ := ih (afterBit s)
    obtain ⟨-, -, hhold, -⟩ := afterBit_frame s
    obtain ⟨hsck1, hmosi1, hsample1, hdelay1, hlength1, -⟩ :=
      waveformEvents_shape (idle s.mode) (cpha s.mode) (currentBit s) (currentSample s) s.hold
    rw [hhold] at hdelay hlength
    rw [bitEvents, callEvents_currentCalls]
    simp only [List.filterMap_append, List.length_append, samplesOf_append, hmosi, hsample, hsck, hdelay, hlength,
      hsck1, hmosi1, hsample1, hdelay1, hlength1]
    refine ⟨Nat.add_comm 1 n, Nat.add_comm 1 n, Nat.add_comm 2 (2 * n), ?_, by rw [Nat.mul_succ, Nat.add_comm]⟩
    split <;> simp [Nat.mul_succ, List.replicate_succ]

theorem samplesOf_exchangeEvents_length (x : Data) (rest : List HostMove) (s : State) :
    (samplesOf (exchangeEvents x rest s)).length = width s.cfg := (bitEvents_counts _ _).2.1

/-- Settles O37: the events of the exchange are those of its `WIDTH` bits. -/
theorem countsOfEventsPerWord : Obligations.CountsOfEventsPerWord := by
  intro x rest s h
  obtain ⟨hmosi, hsample, hsck, hdelay, hlength⟩ :=
    bitEvents_counts (width s.cfg) (startExchange x { s with inbox := rest })
  refine ⟨_, _, runSteps_exchangeEnd h, exchangeEnd_trace x rest s, hmosi, hsample, hsck, hdelay, hlength, ?_⟩
  rw [exchangeEvents, hdelay]
  by_cases hh : s.hold = 0#32 <;> simp [startExchange, hh]

/-! The response is the number that the samples spell (R144). -/

theorem samplesOf_bitEvents_succ (n : Nat) (s : State) :
    samplesOf (bitEvents (n + 1) s) = currentSample s :: samplesOf (bitEvents n (afterBit s)) := by
  obtain ⟨-, -, hsample, -⟩ :=
    waveformEvents_shape (idle s.mode) (cpha s.mode) (currentBit s) (currentSample s) s.hold
  rw [bitEvents, samplesOf_append, callEvents_currentCalls, hsample]
  rfl

/-- The last of the bits still to exchange ends the exchange, and the samples of all of them have been shifted in. -/
theorem iterate_afterBit_response {n : Nat} {s : State} (hxi : s.xi = n) :
    (afterBit^[n + 1] s).busy = false ∧
    (afterBit^[n + 1] s).responses =
      s.responses ++ [.value ((samplesOf (bitEvents (n + 1) s)).foldl shiftIn s.xacc)] := by
  rw [Function.iterate_succ_apply, samplesOf_bitEvents_succ, List.foldl_cons]
  induction n generalizing s with
  | zero => exact afterBit_last hxi
  | succ n ih =>
    obtain ⟨hxacc, hresponses⟩ := afterBit_more (s := s) (by omega)
    rw [Function.iterate_succ_apply, samplesOf_bitEvents_succ, List.foldl_cons, ← hxacc, ← hresponses]
    exact ih (by rw [afterBit_xi, hxi]; rfl)

/-- The response of an exchange of `x`. -/
def exchangeResponse (x : Data) (rest : List HostMove) (s : State) : Data :=
  (samplesOf (exchangeEvents x rest s)).foldl shiftIn 0#32

theorem exchangeEnd_response {x : Data} {rest : List HostMove} {s : State} (h : s.cfg.Accepted) :
    (exchangeEnd x rest s).busy = false ∧
    (exchangeEnd x rest s).responses = s.responses ++ [.value (exchangeResponse x rest s)] := by
  obtain ⟨hwidth, -⟩ := width_bounds h
  have hend := iterate_afterBit_response (s := startExchange x { s with inbox := rest }) (n := width s.cfg - 1) rfl
  rwa [Nat.sub_add_cancel hwidth] at hend

/-- While there is room, shifting bits into the accumulator spells its number on and keeps its bound. -/
theorem foldl_shiftIn_toNat {bits : List Level} {acc : Data} {k : Nat} (hacc : acc.toNat < 2 ^ k)
    (hk : k + bits.length ≤ 32) :
    (bits.foldl shiftIn acc).toNat = bits.foldl (fun n b => 2 * n + b.toNat) acc.toNat ∧
    (bits.foldl shiftIn acc).toNat < 2 ^ (k + bits.length) := by
  induction bits generalizing acc k with
  | nil => exact ⟨rfl, hacc⟩
  | cons b bits ih =>
    rw [List.length_cons] at hk ⊢
    have hroom : 2 ^ k ≤ 2 ^ 31 := Nat.pow_le_pow_right (by decide) (by omega)
    have hrest := ih (shiftIn_lt b hacc (by omega)) (by omega)
    rwa [shiftIn_toNat acc b (by omega), Nat.add_assoc, Nat.add_comm 1] at hrest

theorem exchangeResponse_toNat {x : Data} {rest : List HostMove} {s : State} (h : s.cfg.Accepted) :
    (exchangeResponse x rest s).toNat = msbFirst (samplesOf (exchangeEvents x rest s)) ∧
    (exchangeResponse x rest s).toNat < 2 ^ width s.cfg := by
  obtain ⟨-, hwidth⟩ := width_bounds h
  have hlength := samplesOf_exchangeEvents_length x rest s
  have hspelled := foldl_shiftIn_toNat (bits := samplesOf (exchangeEvents x rest s)) (acc := 0#32) (k := 0) (by decide)
    (by omega)
  rwa [Nat.zero_add, hlength] at hspelled

/-- Settles O34: the samples are shifted into an empty accumulator, which has room for `WIDTH` of them. -/
theorem responseIsTheSampledBits : Obligations.ResponseIsTheSampledBits := by
  intro x rest s h
  obtain ⟨hb, hr⟩ := exchangeEnd_response (x := x) (rest := rest) h.1
  obtain ⟨hspelled, hbound⟩ := exchangeResponse_toNat (x := x) (rest := rest) h.1
  exact ⟨_, _, _, runSteps_exchangeEnd h, hb, exchangeEnd_trace x rest s, hr,
    samplesOf_exchangeEvents_length x rest s, hspelled, hbound⟩

/-! Handles whose sample is a function of the data bit (R147, R148). -/

/-- The bits of a number below `n`, the most significant first, spell it modulo `2 ^ n`. -/
theorem foldl_testBit (y n a : Nat) :
    ((List.range n).reverse.map y.testBit).foldl (fun n b => 2 * n + b.toNat) a = a * 2 ^ n + y % 2 ^ n := by
  induction n generalizing a with
  | zero => simp [Nat.mod_one]
  | succ n ih =>
    rw [List.range_succ, List.reverse_append, List.reverse_singleton, List.singleton_append, List.map_cons,
      List.foldl_cons, ih, Nat.toNat_testBit, Nat.mod_pow_succ]
    ring

/-- Bits that are those of a number below `2 ^ n` spell this number. -/
theorem msbFirst_of_testBit {f : Nat → Level} {n y : Nat} (hy : y < 2 ^ n) (hf : ∀ i, i < n → f i = y.testBit i) :
    msbFirst ((List.range n).reverse.map f) = y := by
  have hbits : (List.range n).reverse.map f = (List.range n).reverse.map y.testBit :=
    List.map_congr_left fun i hi => hf i (by simpa using hi)
  rw [hbits, msbFirst, foldl_testBit, Nat.mod_eq_of_lt hy, Nat.zero_mul, Nat.zero_add]

/-- The data-out line is driven to the data bit before the sample (R128), so a handle that answers a function of the
last driven level samples this function of the data bits. -/
theorem samplesOf_bitEvents {g : Level → Level} {s : State}
    (hg : ∀ draws d trace, drawSample s.cfg.cap.sample draws (some d) trace = g d) (n : Nat) :
    samplesOf (bitEvents n s) = ((bitEvents n s).filterMap mosiOf).map g := by
  induction n generalizing s with
  | zero => rfl
  | succ n ih =>
    obtain ⟨hcfg, -⟩ := afterBit_frame s
    obtain ⟨-, hmosi, -⟩ :=
      waveformEvents_shape (idle s.mode) (cpha s.mode) (currentBit s) (currentSample s) s.hold
    rw [samplesOf_bitEvents_succ, bitEvents, List.filterMap_append, callEvents_currentCalls, hmosi, List.map_append,
      ih (by rwa [hcfg])]
    exact congrArg (· :: _) (hg _ _ _)

theorem samplesOf_exchangeEvents {g : Level → Level} {s : State}
    (hg : ∀ draws d trace, drawSample s.cfg.cap.sample draws (some d) trace = g d) (x : Data) (rest : List HostMove) :
    samplesOf (exchangeEvents x rest s) = (List.range (width s.cfg)).reverse.map (fun i => g (x.getLsbD i)) := by
  rw [exchangeEvents, samplesOf_bitEvents (by exact hg), mosiOf_bitEvents rfl, List.map_map]
  rfl

/-- Samples that are all one level are the bits of a number of which every bit is this level. -/
theorem exchangeResponse_of_forall {x : Data} {rest : List HostMove} {s : State} {b : Level} {y : Nat}
    (h : s.cfg.Accepted) (hb : ∀ v ∈ samplesOf (exchangeEvents x rest s), v = b) (hy : y < 2 ^ width s.cfg)
    (hbits : ∀ i, i < width s.cfg → b = y.testBit i) : (exchangeResponse x rest s).toNat = y := by
  have hsamples : samplesOf (exchangeEvents x rest s) = (List.range (width s.cfg)).reverse.map fun _ => b := by
    rw [List.map_const', List.length_reverse, List.length_range, ← samplesOf_exchangeEvents_length x rest s]
    exact List.eq_replicate_of_mem hb
  rw [(exchangeResponse_toNat h).1, hsamples, msbFirst_of_testBit hy hbits]

theorem exchangeResponse_loopback {s : State} (h : s.cfg.Accepted) (hcap : s.cfg.cap.sample = .loopback) (x : Data)
    (rest : List HostMove) : (exchangeResponse x rest s).toNat = x.toNat % 2 ^ width s.cfg := by
  rw [(exchangeResponse_toNat h).1, samplesOf_exchangeEvents (g := id) (by simp [hcap, drawSample])]
  refine msbFirst_of_testBit (Nat.mod_lt _ (Nat.two_pow_pos _)) fun i hi => ?_
  simp [Nat.testBit_mod_two_pow, hi, BitVec.getLsbD]

theorem exchangeResponse_inverter {s : State} (h : s.cfg.Accepted) (hcap : s.cfg.cap.sample = .inverter) (x : Data)
    (rest : List HostMove) :
    (exchangeResponse x rest s).toNat = (2 ^ width s.cfg - 1) - x.toNat % 2 ^ width s.cfg := by
  have hlow : x.toNat % 2 ^ width s.cfg < 2 ^ width s.cfg := Nat.mod_lt _ (Nat.two_pow_pos _)
  rw [(exchangeResponse_toNat h).1, samplesOf_exchangeEvents (g := not) (by simp [hcap, drawSample])]
  refine msbFirst_of_testBit (by omega) fun i hi => ?_
  rw [Nat.sub_sub, Nat.add_comm, Nat.testBit_two_pow_sub_succ hlow]
  simp [Nat.testBit_mod_two_pow, hi, BitVec.getLsbD]

/-- Settles O38: every sample is the data bit of its waveform. -/
theorem loopbackReturnsTheWord : Obligations.LoopbackReturnsTheWord := by
  intro x rest s h hcap
  have hr := exchangeResponse_loopback h.1 hcap x rest
  refine ⟨_, runSteps_exchangeEnd h, ?_⟩
  rw [(exchangeEnd_response h.1).2, ← hr, BitVec.ofNat_toNat, BitVec.setWidth_eq]

/-- Settles O39: samples that are all alike, or each the inverse of its data bit, are the bits of the stated numbers. -/
theorem tiedAndInvertedDataIn : Obligations.TiedAndInvertedDataIn := by
  intro x rest s h
  have hpos := Nat.two_pow_pos (width s.cfg)
  refine ⟨_, _, _, runSteps_exchangeEnd h, exchangeEnd_trace x rest s, (exchangeEnd_response h.1).2, ?_, ?_, ?_, ?_⟩
  · exact fun hall => exchangeResponse_of_forall h.1 hall (by omega) (by simp +contextual)
  · exact fun hall => exchangeResponse_of_forall h.1 hall hpos (by simp)
  · intro b hcap
    rw [samplesOf_exchangeEvents (g := fun _ => b) (by simp [hcap, drawSample])]
    simp
  · exact fun hcap => exchangeResponse_inverter h.1 hcap x rest

/-! The whole-command form (R140). -/

/-- Between its bits an exchange in progress differs from the whole-command form only in `BUSY` and the elements that
hold no value there. -/
def BetweenBits (u s : State) : Prop := visible u = visible { s with busy := false }

/-- A waveform does not read what `BetweenBits` leaves open: it samples the same level and keeps the relation. -/
theorem BetweenBits.afterWaveform_congr {u s : State} (h : BetweenBits u s) (pol : Level) (pha : Bool) (d : Level) :
    bitSample pol pha d u = bitSample pol pha d s ∧
    BetweenBits (afterWaveform pol pha d u) (afterWaveform pol pha d s) := by
  cases u
  cases s
  simp only [BetweenBits, visible, State.mk.injEq] at h
  obtain ⟨rfl, rfl, rfl, rfl, rfl, -, -, -, -, -, rfl, rfl, rfl, rfl, rfl, rfl⟩ := h
  exact ⟨rfl, rfl⟩

/-- One bit of the whole-command form takes the sample of the current bit and makes the calls of its waveform. -/
theorem BetweenBits.exchangeBits_succ {n : Nat} {u s : State} (h : BetweenBits u s) (hxi : s.xi = n) (acc : Data) :
    ∃ v, exchangeBits s.xdout (n + 1) acc u = exchangeBits s.xdout n (shiftIn acc (currentSample s)) v ∧
      BetweenBits v (afterWaveform (idle s.mode) (cpha s.mode) (currentBit s) s) := by
  have hmode : u.mode = s.mode :=
    congrArg (a₁ := visible u) (a₂ := visible { s with busy := false }) State.mode h
  obtain ⟨hsample, hbetween⟩ := h.afterWaveform_congr (idle s.mode) (cpha s.mode) (currentBit s)
  have hbit : dataBit s.xdout n = currentBit s := by rw [currentBit, hxi]
  rw [exchangeBits, hbit, runCalls_waveform, hmode, currentSample, ← hsample]
  exact ⟨_, rfl, hbetween⟩

/-- From the accumulator so far, the whole-command form of the bits still to exchange ends where the micro-steps end. -/
theorem visible_iterate_afterBit {n : Nat} {u s : State} (hxi : s.xi = n) (h : BetweenBits u s) :
    visible (afterBit^[n + 1] s) = visible
      (respond (.value (exchangeBits s.xdout (n + 1) s.xacc u).2) (exchangeBits s.xdout (n + 1) s.xacc u).1) := by
  induction n generalizing u s with
  | zero =>
    obtain ⟨v, hv, hbetween⟩ := h.exchangeBits_succ hxi s.xacc
    rw [hv, exchangeBits, Function.iterate_one, afterBit_eq, finishBit_last (by exact hxi)]
    exact congrArg (respond (.value (shiftIn s.xacc (currentSample s)))) hbetween.symm
  | succ n ih =>
    obtain ⟨v, hv, hbetween⟩ := h.exchangeBits_succ hxi s.xacc
    obtain ⟨hxacc, -⟩ := afterBit_more (s := s) (by omega)
    obtain ⟨-, -, -, -, hxdout, -⟩ := afterBit_frame s
    have hnext : BetweenBits v (afterBit s) := by
      rw [afterBit_eq, finishBit_more (show _ ≠ 0 by simp [afterWaveform, hxi])]
      exact hbetween
    rw [hv, ← hxacc, ← hxdout, Function.iterate_succ_apply]
    exact ih (by rw [afterBit_xi, hxi]; rfl) hnext

/-- The micro-steps of an exchange and its whole-command form have the same end. -/
theorem visible_exchangeEnd {x : Data} {rest : List HostMove} {s : State} (h : ExchangeAhead x rest s) :
    visible (exchangeEnd x rest s) = visible (wholeExchange x { s with inbox := rest }) := by
  obtain ⟨hacc, ⟨-, hb⟩, -⟩ := h
  obtain ⟨hwidth, -⟩ := width_bounds hacc
  have hstart : BetweenBits { s with inbox := rest } (startExchange x { s with inbox := rest }) := by
    cases s
    cases hb
    rfl
  have hend := visible_iterate_afterBit (n := width s.cfg - 1) rfl hstart
  rwa [Nat.sub_add_cancel hwidth] at hend

/-- Settles O33: each bit of the whole-command form makes the calls of one waveform, as the micro-steps do. -/
theorem microStepsEqualTheWholeCommand : Obligations.MicroStepsEqualTheWholeCommand := fun _ _ _ h =>
  ⟨_, runSteps_exchangeEnd h, visible_exchangeEnd h⟩

/-! The bits above the width (R144). -/

theorem exchangeBits_congr {x y : Data} {n : Nat} (h : ∀ i, i < n → dataBit x i = dataBit y i) (acc : Data)
    (s : State) : exchangeBits x n acc s = exchangeBits y n acc s := by
  induction n generalizing acc s with
  | zero => rfl
  | succ n ih =>
    rw [exchangeBits, exchangeBits, h n n.lt_succ_self, ih fun i hi => h i (hi.trans n.lt_succ_self)]

theorem dataBit_eq_of_mod_eq {x y : Data} {n i : Nat} (h : x.toNat % 2 ^ n = y.toNat % 2 ^ n) (hi : i < n) :
    dataBit x i = dataBit y i := by
  have hbit := congrArg (Nat.testBit · i) h
  simpa [Nat.testBit_mod_two_pow, hi, dataBit, BitVec.getLsbD] using hbit

theorem exchangeAhead_presentingXchg {x : Data} {rest : List HostMove} {s : State} (h : ExchangeAhead x rest s)
    (y : Data) : ExchangeAhead y rest (presentingXchg y rest s) := by
  obtain ⟨hacc, hready, hq, -⟩ := h
  exact ⟨hacc, hready, hq, _, rfl, rfl⟩

/-- Settles O35, through the whole-command form, which reads the bits below `WIDTH` only. -/
theorem highBitsAreNeverSent : Obligations.HighBitsAreNeverSent := by
  intro x y rest s h hxy
  have hy := exchangeAhead_presentingXchg h y
  refine ⟨_, _, runSteps_exchangeEnd h, runSteps_exchangeEnd hy, ?_⟩
  have hwhole : wholeExchange x { s with inbox := rest } = wholeExchange y { s with inbox := rest } := by
    simp only [wholeExchange, exchangeBits_congr fun i hi => dataBit_eq_of_mod_eq hxy hi]
  rw [visible_exchangeEnd h, visible_exchangeEnd hy, hwhole]
  rfl

/-! The fixed-width variant (R143): every operation of the block commutes with `asFixed8` where `WIDTH` is 8. -/

/-- An outcome in which every state is that of the block built in the fixed-width variant. -/
def outcomeAsFixed8 : Host.Outcome State Fault Refusal → Host.Outcome State Fault Refusal
  | .next t => .next (asFixed8 t)
  | .fault (.raised f off t) => .fault (.raised f off (asFixed8 t))
  | .fault (.stopped code) => .fault (.stopped code)
  | .refused r => .refused r

/-- An action from the state of the block built in the fixed-width variant. -/
def actionAsFixed8 : Action → Action
  | .stopped code => .stopped code
  | .wait t => .wait (asFixed8 t)
  | .illegal w t => .illegal w (asFixed8 t)
  | .run i t => .run i (asFixed8 t)

@[simp] theorem asFixed8_fault (s : State) : (asFixed8 s).fault = s.fault := rfl
@[simp] theorem asFixed8_busy (s : State) : (asFixed8 s).busy = s.busy := rfl
@[simp] theorem asFixed8_hold (s : State) : (asFixed8 s).hold = s.hold := rfl
@[simp] theorem asFixed8_xstep (s : State) : (asFixed8 s).xstep = s.xstep := rfl
@[simp] theorem asFixed8_inbox (s : State) : (asFixed8 s).inbox = s.inbox := rfl

/-- XCHG's start step is the one that reads `WIDTH`. -/
theorem startExchange_asFixed8 {s : State} (hw : width s.cfg = 8) (x : Data) :
    startExchange x (asFixed8 s) = asFixed8 (startExchange x s) := by
  rw [startExchange, startExchange, hw]
  rfl

theorem commandBody_asFixed8 {s : State} (hw : width s.cfg = 8) (i : Instr) :
    commandBody i (asFixed8 s) = asFixed8 (commandBody i s) := by
  cases i with
  | xchg x => exact startExchange_asFixed8 hw x
  | setfreq hz =>
    rw [commandBody, setfreqBody, setfreqBody, apply_ite asFixed8]
    rfl
  | setmode m =>
    rw [commandBody, setmodeBody, setmodeBody, apply_ite asFixed8, apply_ite asFixed8]
    rfl
  | cmddata dev c =>
    rw [commandBody, cmddataBody, cmddataBody, apply_ite asFixed8]
    rfl
  | select _ _ | status _ | bitx0 _ | bitx1 _ | bitx2 _ | bitx3 _ => rfl

theorem finishBit_asFixed8 (s : State) : finishBit (asFixed8 s) = asFixed8 (finishBit s) := by
  rw [finishBit, finishBit, apply_ite asFixed8]
  rfl

theorem advanceWith_asFixed8 (c : Call) (last : Bool) (s : State) :
    advanceWith c last (asFixed8 s) = asFixed8 (advanceWith c last s) := by
  have hcall : performCall c (asFixed8 s) = asFixed8 (performCall c s) := by cases c <;> rfl
  rw [advanceWith, advanceWith, hcall, apply_ite asFixed8, ← finishBit_asFixed8]
  rfl

theorem acceptCommand_asFixed8 {s : State} {body : State → State} (h : body (asFixed8 s) = asFixed8 (body s)) :
    acceptCommand (asFixed8 s) body = outcomeAsFixed8 (acceptCommand s body) := by
  rw [acceptCommand, acceptCommand, h, apply_ite outcomeAsFixed8, apply_ite outcomeAsFixed8]
  rfl

theorem microStep_asFixed8 (calls : List Call) (s : State) :
    microStep calls (asFixed8 s) = outcomeAsFixed8 (microStep calls s) := by
  simp only [microStep, asFixed8_fault, asFixed8_busy, asFixed8_hold, asFixed8_xstep, apply_ite outcomeAsFixed8]
  cases (liveCalls s.hold calls)[s.xstep]? with
  | none => rfl
  | some c =>
    simp only [advanceWith_asFixed8]
    rfl

theorem exec_asFixed8 {s : State} (hw : width s.cfg = 8) (i : Instr) :
    exec i (asFixed8 s) = outcomeAsFixed8 (exec i s) := by
  cases hi : i.isCommand with
  | true =>
    rw [exec_command hi, exec_command hi]
    exact acceptCommand_asFixed8 (commandBody_asFixed8 hw i)
  | false =>
    rw [exec_micro hi, exec_micro hi]
    exact microStep_asFixed8 _ s

theorem noCommand_asFixed8 (s : State) : noCommand (asFixed8 s) = actionAsFixed8 (noCommand s) := by
  rw [noCommand, noCommand, apply_ite actionAsFixed8]
  rfl

theorem takeWord_asFixed8 (w : CmdWord) (s : State) : takeWord w (asFixed8 s) = actionAsFixed8 (takeWord w s) := by
  unfold takeWord
  cases decode w <;> rfl

theorem nextAction_asFixed8 (s : State) : nextAction (asFixed8 s) = actionAsFixed8 (nextAction s) := by
  by_cases hf : s.fault = 0#3
  · unfold nextAction
    rw [if_neg (not_not.2 hf), if_neg (by simpa using hf), asFixed8_inbox]
    match s.inbox with
    | [] => exact noCommand_asFixed8 s
    | .pause :: rest => exact noCommand_asFixed8 { s with inbox := rest }
    | .present w :: rest => exact takeWord_asFixed8 w { s with inbox := rest }
    | .issue w :: rest =>
      dsimp only
      rw [apply_ite actionAsFixed8, ← noCommand_asFixed8, ← takeWord_asFixed8]
      rfl
  · rw [nextAction_stopped hf, nextAction_stopped (by simpa using hf)]
    rfl

theorem reportFault_asFixed8 (off : Offender) (o : Host.Outcome State Fault Refusal) :
    reportFault off (outcomeAsFixed8 o) = outcomeAsFixed8 (reportFault off o) := by
  cases o with
  | next t =>
    simp only [reportFault, outcomeAsFixed8, asFixed8_fault]
    cases faultOfCode t.fault <;> rfl
  | fault r => cases r <;> rfl
  | refused r => rfl

theorem step_asFixed8 {s : State} (hw : width s.cfg = 8) : step (asFixed8 s) = outcomeAsFixed8 (step s) := by
  unfold step
  rw [nextAction_asFixed8]
  cases ha : nextAction s with
  | stopped code => rfl
  | wait t => rfl
  | illegal w t => exact reportFault_asFixed8 (.word w) (.next (takeFault .illegal t))
  | run i t =>
    obtain ⟨-, ht, -⟩ := nextAction_start.2.2 i t ha
    have hcfg : t.cfg = s.cfg := by rw [ht]
    simp only [actionAsFixed8, exec_asFixed8 (hcfg ▸ hw), reportFault_asFixed8]

/-- No step writes the configuration (R5). -/
theorem step_cfg {s t : State} (h : step s = .next t) : t.cfg = s.cfg := by
  obtain hw | ⟨i, u, ha, hx, -⟩ := step_next_cases h
  · obtain ⟨-, -, ht⟩ := nextAction_start.1 t hw
    rw [ht]
  · obtain ⟨-, hu, -⟩ := nextAction_start.2.2 i u ha
    obtain ⟨hcfg, -⟩ := whoWritesWhat i u t hx
    rw [hcfg, hu]

theorem runSteps_asFixed8 (n : Nat) {s : State} (hw : width s.cfg = 8) :
    runSteps n (asFixed8 s) = outcomeAsFixed8 (runSteps n s) := by
  induction n generalizing s with
  | zero => rfl
  | succ n ih =>
    rw [runSteps, runSteps, step_asFixed8 hw]
    cases hs : step s with
    | next t => exact ih (by rw [step_cfg hs, hw])
    | fault r => cases r <;> rfl
    | refused r => rfl

/-- Settles O40: a run of the one block is step for step the run of the other. -/
theorem fixed8EqualsVariableOfWidth8 : Obligations.Fixed8EqualsVariableOfWidth8 := by
  intro n s hvariant hcfg
  have hrun := runSteps_asFixed8 n (s := s) (by simp [width, hvariant, hcfg])
  constructor
  · intro t ht
    rw [ht] at hrun
    exact ⟨hrun, rfl⟩
  · intro f off t ht
    rw [ht] at hrun
    exact hrun

end Sys2Proof.Machine
end

section
/-! SUPPORT. Bus control (spec 44): the outcome of a command on a block that is not faulted, and with it SELECT (R160),
STATUS (R161) and CMDDATA (R162), none of which is held back by the device id (R163). -/

namespace Sys2Proof.Machine

/-- R191 before the command's own part, which includes its own faults (R182). -/
theorem exec_command_of_notFaulted {i : Instr} {s : State} (hi : i.isCommand = true) (hf : s.fault = 0#3) :
    exec i s = if s.busy = true then .next { s with fault := 6#3 } else .next (commandBody i s) := by
  rw [exec_command hi]
  split
  next hb => exact acceptCommand_busy hf hb _
  next hb => exact acceptCommand_ready hf (eq_false_of_ne_true hb) _

/-- Settles O41: SELECT's own part is the forwarded call with its answer, for every device id. -/
theorem selectForwardsTheCall : Obligations.SelectForwardsTheCall := fun _ _ _ hf =>
  exec_command_of_notFaulted rfl hf

theorem statusNow_of_constant {s : State} {g : Data} (hcap : s.cfg.cap.status = .constant g)
    (hg : g.toNat < 2 ^ s.cfg.statusWidth) (dev : DevId) : statusNow dev s = g := by
  rw [statusNow, hcap]
  exact limitFlags_of_lt hg

theorem statusNow_toNat_of_host {s : State} (hcap : s.cfg.cap.status = .host) (dev : DevId) :
    (statusNow dev s).toNat =
      (Config.freeStatus s.draws s.trace dev).toNat % 2 ^ s.cfg.statusWidth % 2 ^ 32 := by
  rw [statusNow, hcap]
  exact BitVec.toNat_ofNat _ _

/-- Settles O42: the flags are those that the platform's handle answers in this state. -/
theorem statusReturnsThePlatformsFlags : Obligations.StatusReturnsThePlatformsFlags := by
  intro s dev hf
  have hx := exec_command_of_notFaulted (i := .status dev) rfl hf
  constructor
  · intro hb
    rw [hx, if_pos hb]
  · intro hb
    refine ⟨statusNow dev s, ?_, limitFlags_lt _ _, ?_, fun hcap => statusNow_toNat_of_host hcap dev⟩
    · rw [hx, if_neg (by simp [hb])]
      rfl
    · exact fun g hcap hg => statusNow_of_constant hcap hg dev

/-- Settles O43: the two checks come in their order, and a command that passes them is the forwarded call with its
answer. -/
theorem cmddataForwardsOrIsUnsupported : Obligations.CmddataForwardsOrIsUnsupported := by
  intro s dev c hf
  rw [exec_command_of_notFaulted rfl hf, commandBody, cmddataBody, apply_ite Host.Outcome.next]
  rfl

end Sys2Proof.Machine
end

section
/-! SUPPORT. Exceptions (spec 60): the fault codes (R181), the outcome of a faulted block (R184), the steps that raise a
fault and what they leave unchanged (R183), the priority of the faults (R182), and commands on a busy block (R191). -/

namespace Sys2Proof.Machine

/-! The fault codes (R181). -/

/-- Settles O12: the codes are those of the table, and the remaining values of `FAULT` are no fault's code. -/
theorem faultCodesOfTheTable : Obligations.FaultCodesOfTheTable :=
  ⟨rfl, rfl, rfl, rfl, rfl, rfl, faultOfCode_zero, rfl⟩

/-- `FAULT` tells which fault was taken: no two share a code. -/
theorem eq_of_takeFault_fault {f g : FaultName} {s : State} (h : (takeFault g s).fault = f.code) : g = f :=
  Option.some.inj (by rw [← faultOfCode_code g, ← faultOfCode_code f, ← h, takeFault_fault])

/-! A faulted block (R184). -/

theorem microStep_faulted {s : State} (hf : s.fault ≠ 0#3) (calls : List Call) :
    microStep calls s = .fault (.stopped s.fault) := if_pos hf

theorem exec_faulted {s : State} (hf : s.fault ≠ 0#3) (i : Instr) : exec i s = .fault (.stopped s.fault) := by
  cases hi : i.isCommand with
  | false => rw [exec_micro hi, microStep_faulted hf]
  | true => rw [exec_command hi, acceptCommand_faulted hf]

/-- Settles O10: the step has no action, and commands and micro-operations alike look at `FAULT` first. -/
theorem faultedBlockTakesNoStep : Obligations.FaultedBlockTakesNoStep := fun s hf =>
  ⟨by rw [step, nextAction_stopped hf], exec_faulted hf⟩

/-! Commands on a busy block (R191). -/

/-- Settles O14: `F_REENTRANT` comes before the command's own part. -/
theorem anyCommandWhileBusyIsReentrant : Obligations.AnyCommandWhileBusyIsReentrant := fun _ _ ⟨hf, hb⟩ hi => by
  rw [exec_command_of_notFaulted hi hf, if_pos hb]

/-! What a step that raises a fault did (R183). -/

/-- A reported fault was taken by the outcome's state, or is the outcome's own. -/
theorem reportFault_raised_cases {off off' : Offender} {o : Host.Outcome State Fault Refusal} {f : FaultName}
    {t : State} (h : reportFault off o = .fault (.raised f off' t)) :
    (o = .next t ∧ t.fault = f.code ∧ off' = off) ∨ o = .fault (.raised f off' t) := by
  cases o with
  | next u =>
    obtain hn | ⟨g, hg⟩ := reportFault_next_cases off u
    · rw [hn] at h
      cases h
    · rw [hg] at h
      cases h
      simp only [reportFault] at hg
      split at hg
      next hcode => cases hg; exact .inl ⟨rfl, faultOfCode_eq_some hcode, rfl⟩
      next => cases hg
  | fault r => exact .inr h
  | refused r => cases h

/-- An instruction that leaves a fault's code in `FAULT` is a command, and it has taken that fault, which the decoder
does not share (R182, R183). -/
theorem eq_takeFault_of_exec {i : Instr} {s t : State} {f : FaultName} (h : exec i s = .next t)
    (hcode : t.fault = f.code) : i.isCommand = true ∧ f ≠ .illegal ∧ t = takeFault f s := by
  obtain ⟨hf, ⟨hi, -, rfl⟩ | ⟨hi, -, rfl⟩ | ⟨-, -, c, -, rfl⟩⟩ := exec_next_cases h
  · cases eq_of_takeFault_fault hcode
    exact ⟨hi, by simp, rfl⟩
  · obtain hsame | ⟨g, hg, -, hbody⟩ := commandBody_fault_cases i s
    · rw [hsame, hf] at hcode
      exact absurd hcode.symm f.code_ne_zero
    · rw [hbody] at hcode
      cases eq_of_takeFault_fault hcode
      exact ⟨hi, hg, hbody⟩
  · rw [advanceWith_fault, hf] at hcode
    exact absurd hcode.symm f.code_ne_zero

/-- A step raises a fault for an illegal word, or for a command that takes the fault. -/
theorem step_raised_cases {s t : State} {f : FaultName} {off : Offender} (h : step s = .fault (.raised f off t)) :
    ∃ u, t = takeFault f u ∧
      ((∃ w, nextAction s = .illegal w u ∧ f = .illegal ∧ off = .word w) ∨
       (∃ i, nextAction s = .run i u ∧ i.isCommand = true ∧ f ≠ .illegal ∧ off = .command i)) := by
  unfold step at h
  cases ha : nextAction s with
  | stopped code => simp [ha] at h
  | wait u => simp [ha] at h
  | illegal w u =>
    simp only [ha] at h
    obtain ⟨ht, hcode, hoff⟩ | hfault := reportFault_raised_cases h
    · cases ht
      cases eq_of_takeFault_fault hcode
      exact ⟨u, rfl, .inl ⟨w, rfl, rfl, hoff⟩⟩
    · cases hfault
  | run i u =>
    simp only [ha] at h
    obtain ⟨hx, hcode, hoff⟩ | hfault := reportFault_raised_cases h
    · obtain ⟨hi, hne, ht⟩ := eq_takeFault_of_exec hx hcode
      exact ⟨u, ht, .inr ⟨i, rfl, hi, hne, hoff⟩⟩
    · obtain ⟨hf, hu, -⟩ := nextAction_start.2.2 i u ha
      exact absurd hfault (exec_ne_fault (by rw [hu]; exact hf) _)

/-- Settles O11: the fault is taken in the state that the action starts from, which has lost only the offending word;
no micro-operation of the exchange takes a fault, so the command was decoded from that word. -/
theorem raisedFaultWritesOnlyFault : Obligations.RaisedFaultWritesOnlyFault := by
  intro s f off t h
  obtain ⟨u, rfl, ⟨w, ha, rfl, rfl⟩ | ⟨i, ha, hi, hne, rfl⟩⟩ := step_raised_cases h
  · obtain ⟨hf, hu, hin, hd⟩ := nextAction_start.2.1 w u ha
    exact ⟨hf, rfl, by rw [hu]; rfl, w, hin, .inl ⟨rfl, rfl, hd⟩⟩
  · obtain ⟨hf, hu, ⟨-, rfl⟩ | ⟨w, hin, hd⟩⟩ := nextAction_start.2.2 i u ha
    · simp [selectMicroOp_isCommand] at hi
    · exact ⟨hf, rfl, by rw [hu]; rfl, w, hin, .inr ⟨hne, i, hd, rfl⟩⟩

/-! The priority of the faults (R182). -/

section
variable {s : State} {w : CmdWord} {rest : List HostMove}

/-- An illegal word is looked at by the decoder alone, so a busy block takes it the same way. -/
theorem step_of_illegal_word {e : DecodeError} (hf : s.fault = 0#3) (hin : s.inbox = .present w :: rest)
    (hd : decode w = .error e) :
    step s = .fault (.raised .illegal (.word w) (takeFault .illegal { s with inbox := rest })) := by
  have ha : nextAction s = .illegal w { s with inbox := rest } := by simp [nextAction, hf, hin, takeWord, hd]
  simp [step, ha, reportFault, faultOfCode_code]

/-- The fault that the decoded command takes is the outcome of the step. -/
theorem step_of_takeFault {i : Instr} {f : FaultName} (hf : s.fault = 0#3) (hin : s.inbox = .present w :: rest)
    (hd : decode w = .ok i)
    (hx : exec i { s with inbox := rest } = .next (takeFault f { s with inbox := rest })) :
    step s = .fault (.raised f (.command i) (takeFault f { s with inbox := rest })) :=
  step_of_run_fault (nextAction_of_offered hf (.inl hin) hd) hx rfl

/-- A ready block raises the fault that the command's own part takes. -/
theorem step_of_ownFault {i : Instr} {f : FaultName} (hs : Ready s) (hin : s.inbox = .present w :: rest)
    (hd : decode w = .ok i)
    (hbody : commandBody i { s with inbox := rest } = takeFault f { s with inbox := rest }) :
    step s = .fault (.raised f (.command i) (takeFault f { s with inbox := rest })) := by
  obtain ⟨hf, hb⟩ := hs
  refine step_of_takeFault hf hin hd ?_
  rw [exec_command (isCommand_of_decode hd), ← hbody]
  exact acceptCommand_ready (s := { s with inbox := rest }) hf hb _

end

/-- Settles O13: the decoder comes first, then `BUSY`, and only a ready block reaches the checks of the command's own
part. -/
theorem firstFaultInPriorityOrder : Obligations.FirstFaultInPriorityOrder := by
  intro s w rest hf hin
  refine ⟨fun e hd => step_of_illegal_word hf hin hd, fun i hd => ⟨fun hb => ?reentrant, fun hb => ?own⟩⟩
  case reentrant =>
    exact step_of_takeFault hf hin hd
      (anyCommandWhileBusyIsReentrant { s with inbox := rest } i ⟨hf, hb⟩ (isCommand_of_decode hd))
  case own =>
    have hown {f : FaultName} := step_of_ownFault (f := f) ⟨hf, hb⟩ hin hd
    refine ⟨?_, ?_, ?_, ?_⟩
    · rintro rfl
      exact hown rfl
    · rintro m rfl hr
      exact hown (setmodeBody_of_range hr _)
    · rintro m rfl hr he
      exact hown (setmodeBody_of_disabled (Nat.not_lt.2 hr) he)
    · rintro dev c rfl hc
      exact hown (if_pos hc)

end Sys2Proof.Machine
end

section
/-! SUPPORT. Reset and hazards (spec 70): the block that waits for a command (R202) and its end of run (R210), and
construction with a disabled reset mode (R201) and with the configuration of the vectors (R5). -/

namespace Sys2Proof.Machine

/-! The block that waits (R202, R210). -/

theorem noCommand_of_notBusy {s : State} (hb : s.busy = false) : noCommand s = .wait s := by
  simp [noCommand, hb]

theorem step_of_wait {s t : State} (ha : nextAction s = .wait t) : step s = .next t := by
  simp [step, ha]

/-- Settles O9: an empty port and a pause both present no command, and a block that is not busy then waits. -/
theorem idleBlockWaits : Obligations.IdleBlockWaits := by
  refine ⟨fun s ⟨hin, hb, hf⟩ => step_of_wait ?_, fun s rest ⟨hf, hb⟩ hin => step_of_wait ?_⟩
  · calc nextAction s = noCommand s := by simp [nextAction, hf, hin]
      _ = .wait s := noCommand_of_notBusy hb
  · calc nextAction s = noCommand { s with inbox := rest } := by simp [nextAction, hf, hin]
      _ = .wait { s with inbox := rest } := noCommand_of_notBusy hb

/-! Construction (R200, R201). -/

/-- Settles O52: `F_MODE_DISABLED` is all that construction has written, and a faulted block takes no step whatever the
host presents. -/
theorem constructionFaultsOnADisabledMode : Obligations.ConstructionFaultsOnADisabledMode := fun _ hc he =>
  ⟨_, construct_disabled hc he, rfl, rfl, rfl, fun _ =>
    (faultedBlockTakesNoStep _ (FaultName.code_ne_zero .modeDisabled)).1⟩

theorem vectors_accepted : Config.vectors.Accepted := by decide

/-- `OVERHEAD_NS` = 100 and `RESET_FREQ_HZ` = 400000 give the hold time 1, and mode 0 idles low (R31). -/
theorem constructed_vectors : constructed Config.vectors 0#2 = State.reset := rfl

/-- Settles O54: the vectors' configuration is accepted and enables its reset mode 0. -/
theorem resetIsConstructed : Obligations.ResetIsConstructed :=
  (construct_enabled vectors_accepted rfl).trans (congrArg _ constructed_vectors)

end Sys2Proof.Machine
end

section
/-! SUPPORT. The words of spec 95, section 2.6: the encoder gives each legal one, and the decoder rejects the others. -/

namespace Sys2Proof.Machine

theorem decode_of_encode {i : Instr} {w : CmdWord} : encode i = some w → decode w = .ok i :=
  (encode_eq_some_iff i w).1

/-- Settles O5: the six legal words are what the encoder packs for the listed commands; each of the other three is
rejected by its opcode, or by the reserved bits of the row that its opcode names. -/
theorem listedWordsDecode : Obligations.ListedWordsDecode := by
  refine ⟨decode_of_encode rfl, decode_of_encode rfl, decode_of_encode rfl, decode_of_encode rfl, decode_of_encode rfl,
    decode_of_encode rfl, ?opcode, ?select, ?setmode⟩
  case opcode => decide
  case select => decide
  case setmode => decide

end Sys2Proof.Machine
end
